-- ==== Sys2Proof/Word.lean ====
section
/-! DEFINITION. The words of the block's interface: ticks, port masks, command words, event codes, and the
moves ("offers") that carry a command or an event to the block (00_scope.md R10, R11; 30_encoding.md R73, R83). -/

namespace Sys2Proof

/-- A Tick: a 16-bit counter value, arithmetic modulo 2^16 (00_scope.md R5, R11). -/
abbrev Tick := BitVec 16

/-- A GPIO port bitmask: bit `b` is port pin `b` (20_memory.md R58). Its width PORT_W is a parameter of the run
(00_scope.md R5), so a mask is a number and the invariant of Safety.lean bounds it by `2 ^ PORT_W` (log 14). -/
abbrev PortMask := Nat

/-- The `CH` field of a command word (30_encoding.md R74, R77). -/
abbrev Channel := BitVec 5

/-- A command word on `cmd`, and a result word on `rsp` (30_encoding.md R73, R82). -/
abbrev Word32 := BitVec 32

/-- An event code (30_encoding.md R83). -/
abbrev EventCode := BitVec 8

abbrev Byte := BitVec 8

/-- Which TimeBase instance a command reads (30_encoding.md R78): the input counter `TB_IN.cnt` or the output
counter `TMR.cnt`. -/
inductive CounterSel where
  | input
  | output
  deriving DecidableEq, Repr

/-- One move an agent offers the block: a command word on `cmd` with `cmd_valid` (R73), or an event code with its
payload (R83). -/
inductive Offer where
  | command (w : Word32)
  | event (code : EventCode) (payload : PortMask)
  deriving DecidableEq, Repr

end Sys2Proof
end

