-- ==== Sys2Proof/Syntax.lean ====
section
/-! DEFINITION. The block's operations: one constructor per row of spec/opcode_table.json, the eleven commands of
`TASK` (30_encoding.md R75) and the nine events of the other agents and of the drain (R83; 00_scope.md R8). -/

namespace Sys2Proof

inductive Instr where
  /-- `TB_NOW sel` (40_timebase.md R90). -/
  | tbNow (sel : CounterSel)
  /-- `TB_ELAPSED sel, since` (40_timebase.md R91). -/
  | tbElapsed (sel : CounterSel) (since : Tick)
  /-- `PPM_PRE` (42_ppm_decoder.md R104). -/
  | ppmPre
  /-- `PPM_GET ch` (42_ppm_decoder.md R110). -/
  | ppmGet (ch : Channel)
  /-- `PPM_SET ch, value, active` (42_ppm_decoder.md R111). -/
  | ppmSet (ch : Channel) (value : Tick) (active : Bool)
  /-- `PPM_POST` (42_ppm_decoder.md R112). -/
  | ppmPost
  /-- `SRV_PRE` (44_servo_output.md R126). -/
  | srvPre
  /-- `SRV_GET ch` (44_servo_output.md R124). -/
  | srvGet (ch : Channel)
  /-- `SRV_SET ch, value, active` (44_servo_output.md R123). -/
  | srvSet (ch : Channel) (value : Tick) (active : Bool)
  /-- `SRV_POST` (44_servo_output.md R127). -/
  | srvPost
  /-- `CFG_ENABLE ch, enabled` (44_servo_output.md R125). -/
  | cfgEnable (ch : Channel) (enabled : Bool)
  /-- `EV_TICK_IN` (40_timebase.md R88). -/
  | evTickIn
  /-- `EV_TICK_OUT` (40_timebase.md R89). -/
  | evTickOut
  /-- `EV_PIN p` (41_edge_capture.md R94). -/
  | evPin (p : PortMask)
  /-- `EV_EDGE_ISR` (41_edge_capture.md R95). -/
  | evEdgeIsr
  /-- `EV_EDGE_ISR_CLR` (41_edge_capture.md R96). -/
  | evEdgeIsrClr
  /-- `EV_TIMER_ISR` (44_servo_output.md R129). -/
  | evTimerIsr
  /-- `EV_DECODE_ONE` (42_ppm_decoder.md R105). -/
  | evDecodeOne
  /-- `EV_DECODE_END` (42_ppm_decoder.md R108). -/
  | evDecodeEnd
  /-- `EV_RESET` (70_reset_and_hazards.md R161). -/
  | evReset
  deriving DecidableEq, Repr

end Sys2Proof
end

