-- ==== Sys2Proof/WellFormed.lean ====
section
/-! DEFINITION. What an instruction may not express in its types: the payload of `EV_PIN` has PORT_W bits
(30_encoding.md R83, 41_edge_capture.md R94). Every command field has its own width in the type, and a channel out of
range is legal (30_encoding.md R77). -/

namespace Sys2Proof

/-- The operands fit the fields the encoding gives them, on a port of `portW` pins. -/
def Instr.wf (portW : Nat) : Instr → Bool
  | .tbNow _ => true
  | .tbElapsed _ _ => true
  | .ppmPre => true
  | .ppmGet _ => true
  | .ppmSet _ _ _ => true
  | .ppmPost => true
  | .srvPre => true
  | .srvGet _ => true
  | .srvSet _ _ _ => true
  | .srvPost => true
  | .cfgEnable _ _ => true
  | .evTickIn => true
  | .evTickOut => true
  | .evPin p => decide (p < 2 ^ portW)
  | .evEdgeIsr => true
  | .evEdgeIsrClr => true
  | .evTimerIsr => true
  | .evDecodeOne => true
  | .evDecodeEnd => true
  | .evReset => true

end Sys2Proof
end

