-- ==== Sys2Proof/Decode.lean ====
section
/-! DEFINITION. The decoder, total on every 32-bit command word (30_encoding.md R80, R81) and on every event code
(R83), and the encoder written from the same tables (R74 to R76, R83). -/

namespace Sys2Proof

/-- Why an offer is no instruction. -/
inductive DecodeError where
  /-- A command word whose `OP` is 0x0 or in 0xC..0xF (R81). -/
  | illegalOpcode
  /-- A command word of a legal `OP` with a fixed field that differs from the row's pattern (R81). -/
  | illegalFixedField
  /-- An event code that is no event: 0x00 or 0x0A..0xFF (R83). -/
  | notAnEvent (code : EventCode)
  deriving DecidableEq, Repr

/-! ## Fields (R74) -/

/-- `OP`, bits 31:28. -/
def opField (w : Word32) : BitVec 4 := w.extractLsb' 28 4

/-- `CH`, bits 27:23, an unsigned channel number (R77). -/
def chField (w : Word32) : Channel := w.extractLsb' 23 5

/-- `A`, bit 22 (R78). -/
def aField (w : Word32) : Bool := w.getLsbD 22

/-- `RSV`, bits 21:16. -/
def rsvField (w : Word32) : BitVec 6 := w.extractLsb' 16 6

/-- `V`, bits 15:0, used unchanged (R79). -/
def vField (w : Word32) : Tick := w.extractLsb' 0 16

/-- `A` as the counter select of `TB_NOW` and `TB_ELAPSED`: 0 input, 1 output (R78). -/
def selOfBit : Bool → CounterSel
  | false => .input
  | true => .output

def bitOfSel : CounterSel → Bool
  | .input => false
  | .output => true

/-! ## The command rows (R76) -/

/-- One row of the table of R76: a word encodes the row iff `w & mask = pattern`. -/
structure CmdRow where
  pattern : Word32
  mask : Word32
  build : Channel → Bool → Tick → Instr

/-- The rows of R76, in the order of the opcodes. -/
def commandRows : List CmdRow :=
  [ { pattern := 0x10000000#32, mask := 0xFFBFFFFF#32, build := fun _ a _ => .tbNow (selOfBit a) },
    { pattern := 0x20000000#32, mask := 0xFFBF0000#32, build := fun _ a v => .tbElapsed (selOfBit a) v },
    { pattern := 0x30000000#32, mask := 0xFFFFFFFF#32, build := fun _ _ _ => .ppmPre },
    { pattern := 0x40000000#32, mask := 0xF07FFFFF#32, build := fun ch _ _ => .ppmGet ch },
    { pattern := 0x50000000#32, mask := 0xF03F0000#32, build := fun ch a v => .ppmSet ch v a },
    { pattern := 0x60000000#32, mask := 0xFFFFFFFF#32, build := fun _ _ _ => .ppmPost },
    { pattern := 0x70000000#32, mask := 0xFFFFFFFF#32, build := fun _ _ _ => .srvPre },
    { pattern := 0x80000000#32, mask := 0xF07FFFFF#32, build := fun ch _ _ => .srvGet ch },
    { pattern := 0x90000000#32, mask := 0xF03F0000#32, build := fun ch a v => .srvSet ch v a },
    { pattern := 0xA0000000#32, mask := 0xFFFFFFFF#32, build := fun _ _ _ => .srvPost },
    { pattern := 0xB0000000#32, mask := 0xF03FFFFF#32, build := fun ch a _ => .cfgEnable ch a } ]

/-- Does the word encode the row? -/
def CmdRow.hits (r : CmdRow) (w : Word32) : Bool := w &&& r.mask == r.pattern

/-- `OP` 0x1 to 0xB are the legal opcodes (R75). -/
def legalOpcode (op : BitVec 4) : Bool := decide (1 ≤ op.toNat) && decide (op.toNat ≤ 11)

/-- `Decode(w)` of R80. -/
def decodeCommand (w : Word32) : Except DecodeError Instr :=
  match commandRows.find? (fun r => r.hits w) with
  | some r => .ok (r.build (chField w) (aField w) (vField w))
  | none => .error (if legalOpcode (opField w) then .illegalFixedField else .illegalOpcode)

/-- The event of a code (R83). Only `EV_PIN` carries a payload; another event's is not looked at (log 16). -/
def decodeEventCode (code : EventCode) (payload : PortMask) : Except DecodeError Instr :=
  match code.toNat with
  | 1 => .ok .evTickIn
  | 2 => .ok .evTickOut
  | 3 => .ok (.evPin payload)
  | 4 => .ok .evEdgeIsr
  | 5 => .ok .evEdgeIsrClr
  | 6 => .ok .evTimerIsr
  | 7 => .ok .evDecodeOne
  | 8 => .ok .evDecodeEnd
  | 9 => .ok .evReset
  | _ => .error (.notAnEvent code)

/-- The instruction an offer stands for. -/
def decode : Offer → Except DecodeError Instr
  | .command w => decodeCommand w
  | .event code payload => decodeEventCode code payload

/-! ## The encoder -/

/-- The command word `{OP, CH, A, 000000, V}` of R74. -/
def cmdWord (op : BitVec 4) (ch : Channel) (a : Bool) (v : Tick) : Word32 :=
  op ++ ch ++ BitVec.ofBool a ++ 0#6 ++ v

/-- The command word or event code of an instruction (R75, R76, R83). -/
def encode : Instr → Offer
  | .tbNow sel => .command (cmdWord 0x1#4 0#5 (bitOfSel sel) 0#16)
  | .tbElapsed sel since => .command (cmdWord 0x2#4 0#5 (bitOfSel sel) since)
  | .ppmPre => .command (cmdWord 0x3#4 0#5 false 0#16)
  | .ppmGet ch => .command (cmdWord 0x4#4 ch false 0#16)
  | .ppmSet ch value active => .command (cmdWord 0x5#4 ch active value)
  | .ppmPost => .command (cmdWord 0x6#4 0#5 false 0#16)
  | .srvPre => .command (cmdWord 0x7#4 0#5 false 0#16)
  | .srvGet ch => .command (cmdWord 0x8#4 ch false 0#16)
  | .srvSet ch value active => .command (cmdWord 0x9#4 ch active value)
  | .srvPost => .command (cmdWord 0xA#4 0#5 false 0#16)
  | .cfgEnable ch enabled => .command (cmdWord 0xB#4 ch enabled 0#16)
  | .evTickIn => .event 0x01#8 0
  | .evTickOut => .event 0x02#8 0
  | .evPin p => .event 0x03#8 p
  | .evEdgeIsr => .event 0x04#8 0
  | .evEdgeIsrClr => .event 0x05#8 0
  | .evTimerIsr => .event 0x06#8 0
  | .evDecodeOne => .event 0x07#8 0
  | .evDecodeEnd => .event 0x08#8 0
  | .evReset => .event 0x09#8 0

/-! ## Byte order of a serialised word (20_memory.md R58: little-endian) -/

/-- The four bytes of a command or result word on a byte-wide path: byte 0 carries bits 7:0. -/
def bytesOfWord (w : Word32) : List Byte :=
  [w.extractLsb' 0 8, w.extractLsb' 8 8, w.extractLsb' 16 8, w.extractLsb' 24 8]

/-- The word that four bytes of a byte-wide path carry; none for another number of bytes. -/
def wordOfBytes : List Byte → Option Word32
  | [b0, b1, b2, b3] => some (b3 ++ b2 ++ b1 ++ b0)
  | _ => none

/-! ## The opcode table's numbering -/

/-- The offer a row of spec/opcode_table.json names by its bits: 32 bits are a command word, laid out as its four
bytes and read back (R58); 8 bits are an event code, with a payload of zeros. -/
def offerOfTableWord (nbits w : Nat) : Option Offer :=
  if nbits = 32 then (wordOfBytes (bytesOfWord (BitVec.ofNat 32 w))).map .command
  else if nbits = 8 then some (.event (BitVec.ofNat 8 w) 0)
  else none

/-- The instruction the decoder reads from a row's bits. -/
def decodeTableWord (nbits w : Nat) : Option Instr :=
  match offerOfTableWord nbits w with
  | none => none
  | some o => match decode o with
    | .ok i => some i
    | .error _ => none

end Sys2Proof
end

