-- ==== Sys2Proof/Config.lean ====
section
/-! DEFINITION. What is fixed for a run: the implementation parameters of 00_scope.md R5, the names of the checks of
R6, the test configuration of 95_test_vectors.md, and the one free value (the input counter at a reset). -/

namespace Sys2Proof

/-- The parameters of 00_scope.md R5. Each is open: a claim holds for every value, or names the checks it needs.
`MAX_STEPS` is derived; `TB_IN_INIT` is drawn at each reset (`Config.freeTick`). -/
structure Config where
  /-- `PORT_W`, width of every GPIO port bitmask. -/
  portW : Nat
  /-- `RING_CAP`, number of slots of the edge ring. -/
  ringCap : Nat
  /-- `N_PPM`, number of PPM channels decoded. -/
  nPpm : Nat
  /-- `N_SERVO`, number of servo output channels. -/
  nServo : Nat
  /-- `K_LANES`, number of lanes of the schedule builder. -/
  kLanes : Nat
  /-- `FRAME_SYNC_THRESHOLD`, in input ticks. -/
  frameSyncThreshold : Nat
  /-- `INACTIVITY_TIMEOUT`, in input ticks. -/
  inactivityTimeout : Nat
  /-- `MIN_PULSE`, in output ticks. -/
  minPulse : Nat
  /-- `MAX_PULSE`, in output ticks. -/
  maxPulse : Nat
  /-- `REFRESH_PERIOD`, in output ticks. -/
  refreshPeriod : Nat
  /-- `PPM_MASK`, the monitored pin of the input port. -/
  ppmMask : PortMask
  /-- `PIN_MASK[c]` for `c < N_SERVO`, the servo pins of the output port. -/
  pinMasks : List PortMask
  /-- `ENABLE_INIT[c]` for `c < N_SERVO`. -/
  enableInits : List Bool
  /-- `CORE_BASE` (20_memory.md R64): read by no rule. -/
  coreBase : Nat
  /-- `TICK_HZ_IN`: read by no rule. -/
  tickHzIn : Nat
  /-- `TICK_HZ_OUT`: read by no rule. -/
  tickHzOut : Nat
  deriving DecidableEq, Repr

/-- `MAX_STEPS = N_SERVO + 1` (R5). -/
def Config.maxSteps (c : Config) : Nat := c.nServo + 1

/-- `PIN_MASK[ch]`. -/
def Config.pinMask (c : Config) (ch : Nat) : PortMask := c.pinMasks.getD ch 0

/-- `ENABLE_INIT[ch]`. -/
def Config.enableInit (c : Config) (ch : Nat) : Bool := c.enableInits.getD ch false

/-- The named checks of 00_scope.md R6. -/
inductive WfCheck where
  | wfRing
  | wfPort
  | wfPins
  | wfCounts
  | wfPulse
  | wfPeriod
  | wfThresh
  deriving DecidableEq, Repr

/-- The checks in the order R6 lists them. -/
def WfCheck.all : List WfCheck :=
  [.wfRing, .wfPort, .wfPins, .wfCounts, .wfPulse, .wfPeriod, .wfThresh]

/-- The test configuration of 95_test_vectors.md section 0 (D42). The rates and the base address have no value in
the spec and no reader. -/
def Config.test : Config where
  portW := 32
  ringCap := 64
  nPpm := 8
  nServo := 24
  kLanes := 5
  frameSyncThreshold := 3000
  inactivityTimeout := 30000
  minPulse := 500
  maxPulse := 2500
  refreshPeriod := 20000
  ppmMask := 1
  pinMasks := (List.range 24).map (fun c => 2 ^ c)
  enableInits := List.replicate 24 false
  coreBase := 0
  tickHzIn := 0
  tickHzOut := 0

/-- `TB_IN_INIT`, drawn afresh at every reset and never known (70_reset_and_hazards.md R164): the value of the n-th
draw. It has no body, so no proof can see one (log 7). -/
opaque Config.freeTick : Nat → Tick

end Sys2Proof
end

