-- ==== Sys2Proof/Machine/State.lean ====
section
/-! DEFINITION. The state of the block (10_state.md), the reasons a step can stop, and the state after reset
(70_reset_and_hazards.md R162). -/

namespace Sys2Proof.Machine

/-- `EdgeEvent` (10_state.md R32): the tick and the whole input port at the time the edge handler ran. -/
structure EdgeEvent where
  ts : Tick
  snap : PortMask
  deriving DecidableEq, Repr

/-- `EdgeRingBuffer` (R32 to R35). -/
structure Ring where
  /-- `RING.slot[i]`, `i < RING_CAP`. -/
  slots : List EdgeEvent
  /-- `RING.wr`, the slot the next push writes. -/
  wr : Nat
  /-- `RING.rd`, the slot the next pop reads. -/
  rd : Nat
  deriving DecidableEq, Repr

/-- `PpmChannelState` (R36 to R40). -/
structure Ppm where
  /-- `PPM.pulse_tick[j]`, `j < N_PPM`. -/
  pulseTick : List Tick
  /-- `PPM.index`, the frame cursor, in `0..N_PPM`. -/
  index : Nat
  prevLevel : Bool
  lastToggleTime : Tick
  active : Bool
  deriving DecidableEq, Repr

/-- `ServoChannelConfig` of one channel (R42 to R44). -/
structure Servo where
  enabled : Bool
  active : Bool
  timerValue : Tick
  deriving DecidableEq, Repr

/-- One step of a schedule (R45, 43_schedule_builder.md R113). -/
structure PulseStep where
  mask : PortMask
  ticks : Tick
  deriving DecidableEq, Repr

/-- A schedule buffer (R45): `MAX_STEPS` steps, of which the first `len` are meaningful. -/
structure Buffer where
  len : Nat
  steps : List PulseStep
  drive : PortMask
  deriving DecidableEq, Repr

/-- `DoubleBufferedSchedule` (R45 to R47). -/
structure Sched where
  buf0 : Buffer
  buf1 : Buffer
  /-- `SCHED.cur`: false is buffer 0, true is buffer 1. -/
  cur : Bool
  nextPending : Bool
  deriving DecidableEq, Repr

/-- The timer/compare unit and the engine's position (R27 to R29, R48). -/
structure Timer where
  cnt : Tick
  cmp : Tick
  /-- `TMR_FLAG`. -/
  flag : Bool
  /-- `TMR.step_idx`. -/
  stepIdx : Nat
  deriving DecidableEq, Repr

/-- The state of the block: the elements of R23 to R48 and R55, the configuration of the run (R52), and the model's
own three fields (`offers`, `cycle`, `draws`). -/
structure State where
  /-- The configuration: fixed for the run, written by no step (R52; log 1). -/
  cfg : Config
  /-- `IN_PORT` (R23). -/
  inPort : PortMask
  /-- `OUT_PORT` (R24). -/
  outPort : PortMask
  /-- `OUT_DRIVE` (R25). -/
  outDrive : PortMask
  /-- `TB_IN.cnt` (R26). -/
  tbIn : Tick
  /-- `TMR` (R27 to R29, R48). -/
  tmr : Timer
  /-- `EDGE_FLAG` (R30). -/
  edgeFlag : Bool
  /-- `EDGE_PHASE` (R31). -/
  edgePhase : Bool
  /-- `DEC_PHASE` (R41). -/
  decPhase : Bool
  /-- `RING` (R32 to R35). -/
  ring : Ring
  /-- `PPM` (R36 to R40). -/
  ppm : Ppm
  /-- `SRV[c]`, `c < N_SERVO` (R42 to R44). -/
  srv : List Servo
  /-- `SCHED` (R45 to R47). -/
  sched : Sched
  /-- `RSP` (R55). -/
  rsp : Word32
  /-- MODEL: the moves the agents offer, oldest first; the interleaving of the run (R146, R147; log 3). -/
  offers : List Offer
  /-- MODEL: the moves the environment and the host go on offering, again and again (60_exceptions.md R160; log 33). -/
  cycle : List Offer
  /-- MODEL: how many free values have been drawn (log 7). -/
  draws : Nat
  deriving DecidableEq, Repr

/-- The faults of the block: none. "There are no exceptions and no faults" and "no step of the block ever stops it"
(60_exceptions.md R137), so the type has no constructor. -/
inductive Fault where
  deriving DecidableEq, Repr

/-- Why the model has no meaning for a step. -/
inductive Refusal where
  /-- Raised by an arm of `exec` for an instruction that has no meaning yet. Safe: the run ends. -/
  | notModelled (mnemonic : String)
  /-- Raised by `EV_RESET` when the configuration fails a check of 00_scope.md R6: "at `EV_RESET` the model refuses
  with the name of the failed check" (60_exceptions.md R140). Safe. -/
  | invalidConfig (check : WfCheck)
  /-- Raised by `step` when an agent offers an event code that is "none: not an event" (30_encoding.md R83). Safe. -/
  | notAnEvent (code : EventCode)
  deriving DecidableEq, Repr

/-- The schedule step `{0, 0}`, the named value of a step no build has written (log 11). -/
def PulseStep.blank : PulseStep := { mask := 0, ticks := 0#16 }

/-- The idle step `{mask 0, ticks REFRESH_PERIOD}` (R45). -/
def PulseStep.idle (cfg : Config) : PulseStep := { mask := 0, ticks := BitVec.ofNat 16 cfg.refreshPeriod }

/-- The idle schedule `{len 1, [{0, REFRESH_PERIOD}], drive 0}` in a buffer of `MAX_STEPS` steps (R45). -/
def Buffer.idle (cfg : Config) : Buffer :=
  { len := 1, steps := PulseStep.idle cfg :: List.replicate cfg.nServo PulseStep.blank, drive := 0 }

/-- `TICK_IN` and `TICK_OUT` ticking for ever, one tick each in turn (60_exceptions.md R160; log 33). -/
def ticking : List Offer := [.event 0x01#8 0, .event 0x02#8 0]

/-- The state right after reset (70_reset_and_hazards.md R162) of a run with the configuration `cfg`, the input
counter at `tbInInit` and the environment driving `pins`. What R162 calls unspecified and never read holds the values
of log 10 and 11. -/
def State.initial (cfg : Config) (tbInInit : Tick) (pins : PortMask) : State where
  cfg := cfg
  inPort := pins
  outPort := 0
  outDrive := 0
  tbIn := tbInInit
  tmr := { cnt := 0#16, cmp := 1#16, flag := false, stepIdx := 0 }
  edgeFlag := false
  edgePhase := false
  decPhase := false
  ring := { slots := List.replicate cfg.ringCap { ts := 0#16, snap := 0 }, wr := 0, rd := 0 }
  ppm := { pulseTick := List.replicate cfg.nPpm 0#16, index := 0, prevLevel := false, lastToggleTime := 0#16,
           active := false }
  srv := (List.range cfg.nServo).map
    (fun c => { enabled := cfg.enableInit c, active := false, timerValue := BitVec.ofNat 16 cfg.minPulse })
  sched := { buf0 := Buffer.idle cfg, buf1 := Buffer.idle cfg, cur := false, nextPending := false }
  rsp := 0#32
  offers := []
  cycle := ticking
  draws := 0

/-- The machine right after reset, with the spec's test configuration (log 2), the input counter at 0 (log 8) and the
input port at 0 (log 9). -/
def State.reset : State := State.initial Config.test 0#16 0

end Sys2Proof.Machine
end

