-- ==== Sys2Proof/Machine/Ops.lean ====
section
/-! DEFINITION. The shared operations: writing one element of the state, the enabling table of 60_exceptions.md R146,
the edge ring (41_edge_capture.md R97 to R99), the double buffer (44_servo_output.md R127, R128), and the array
reads. Entering and leaving a handler saves and restores nothing (60_exceptions.md R148, R150), so there is no shared
operation for it beyond `takeIf`: a handler is a step of its own agent. -/

namespace Sys2Proof.Machine

/-- What a step answers. -/
abbrev Answer := Host.Outcome State Fault Refusal

/-! ## Writing one element -/

def State.setInPort (s : State) (v : PortMask) : State := { s with inPort := v }
def State.setOutPort (s : State) (v : PortMask) : State := { s with outPort := v }
def State.setOutDrive (s : State) (v : PortMask) : State := { s with outDrive := v }
def State.setTbIn (s : State) (v : Tick) : State := { s with tbIn := v }
def State.setTmr (s : State) (v : Timer) : State := { s with tmr := v }
def State.setEdgeFlag (s : State) (v : Bool) : State := { s with edgeFlag := v }
def State.setEdgePhase (s : State) (v : Bool) : State := { s with edgePhase := v }
def State.setDecPhase (s : State) (v : Bool) : State := { s with decPhase := v }
def State.setRing (s : State) (v : Ring) : State := { s with ring := v }
def State.setPpm (s : State) (v : Ppm) : State := { s with ppm := v }
def State.setSrv (s : State) (v : List Servo) : State := { s with srv := v }
def State.setSched (s : State) (v : Sched) : State := { s with sched := v }
def State.setRsp (s : State) (v : Word32) : State := { s with rsp := v }
def State.setOffers (s : State) (v : List Offer) : State := { s with offers := v }

/-! ## The edge ring -/

/-- The index after `i`, reduced modulo RING_CAP (41_edge_capture.md R99). -/
def ringNext (cap i : Nat) : Nat := (i + 1) % cap

/-- Empty iff read = write (10_state.md R35). -/
def Ring.isEmpty (r : Ring) : Bool := r.rd == r.wr

/-- Full iff write + 1 (mod capacity) = read (R35). -/
def Ring.isFull (cap : Nat) (r : Ring) : Bool := ringNext cap r.wr == r.rd

/-- The slot at an index. An index in a reachable state is below RING_CAP (R60); past the slots the event is
`{0, 0}` (log 19). -/
def Ring.slot (r : Ring) (i : Nat) : EdgeEvent := r.slots.getD i { ts := 0#16, snap := 0 }

/-- How many events the ring holds (R35). -/
def Ring.count (cap : Nat) (r : Ring) : Nat := (r.wr + cap - r.rd) % cap

/-- The events in the ring, oldest first (R35). -/
def Ring.events (cap : Nat) (r : Ring) : List EdgeEvent :=
  (List.range (r.count cap)).map (fun k => r.slot ((r.rd + k) % cap))

/-- `RingPush(ev)` (R97): a full ring drops the new event. -/
def Ring.push (cap : Nat) (r : Ring) (ev : EdgeEvent) : Ring :=
  if r.isFull cap then r
  else { r with slots := r.slots.set r.wr ev, wr := ringNext cap r.wr }

/-- `RingPop()` (R98); none is `EMPTY`. -/
def Ring.pop (cap : Nat) (r : Ring) : Option (EdgeEvent × Ring) :=
  if r.isEmpty then none
  else some (r.slot r.rd, { r with rd := ringNext cap r.rd })

/-! ## The enabling table (60_exceptions.md R146) -/

/-- A `TASK` command may run: no drain, and the edge handler is not between its two steps. -/
def taskReady (s : State) : Bool := !s.decPhase && !s.edgePhase

def timerIsrReady (s : State) : Bool := s.tmr.flag

def edgeIsrReady (s : State) : Bool := s.edgeFlag && !s.edgePhase

def edgeIsrClrReady (s : State) : Bool := s.edgePhase

def decodeOneReady (s : State) : Bool := s.decPhase && !s.ring.isEmpty && !s.edgePhase

def decodeEndReady (s : State) : Bool := s.decPhase && s.ring.isEmpty && !s.edgePhase

/-- Whether R146 enables the step. -/
def enabled (i : Instr) (s : State) : Bool :=
  match i with
  | .tbNow _ => taskReady s
  | .tbElapsed _ _ => taskReady s
  | .ppmPre => taskReady s
  | .ppmGet _ => taskReady s
  | .ppmSet _ _ _ => taskReady s
  | .ppmPost => taskReady s
  | .srvPre => taskReady s
  | .srvGet _ => taskReady s
  | .srvSet _ _ _ => taskReady s
  | .srvPost => taskReady s
  | .cfgEnable _ _ => taskReady s
  | .evTickIn => true
  | .evTickOut => true
  | .evPin _ => true
  | .evEdgeIsr => edgeIsrReady s
  | .evEdgeIsrClr => edgeIsrClrReady s
  | .evTimerIsr => timerIsrReady s
  | .evDecodeOne => decodeOneReady s
  | .evDecodeEnd => decodeEndReady s
  | .evReset => true

/-- Take the step to `t` if it is enabled. A step that is not enabled is no move (R146; "no move: the step is not
enabled …; the host must wait", 93_implementation_defined.md U23): nothing happens (log 4). -/
def takeIf (ready : Bool) (s t : State) : Answer := .next (if ready then t else s)

/-- A `TASK` command that answers the result word `w` (10_state.md R55) and whose other effects are in `t`. -/
def command (s t : State) (w : Word32) : Answer := takeIf (taskReady s) s (t.setRsp w)

/-! ## The double buffer -/

/-- `SCHED.buf[b]`. -/
def Sched.buffer (d : Sched) (b : Bool) : Buffer := if b then d.buf1 else d.buf0

/-- The buffer the engine executes (10_state.md R46). -/
def Sched.current (d : Sched) : Buffer := d.buffer d.cur

/-- The other buffer (R46; 44_servo_output.md R128). -/
def Sched.standby (d : Sched) : Buffer := d.buffer (!d.cur)

/-- Write `SCHED.buf[b]`. -/
def Sched.setBuffer (d : Sched) (b : Bool) (x : Buffer) : Sched :=
  if b then { d with buf1 := x } else { d with buf0 := x }

/-- Write a schedule into a buffer: steps past the new `len` keep their contents (44_servo_output.md R127). -/
def Buffer.load (b : Buffer) (steps : List PulseStep) (drive : PortMask) : Buffer :=
  { len := steps.length, steps := steps ++ b.steps.drop steps.length, drive := drive }

/-- `step[k]` of a buffer. In a reachable state `k < len` (10_state.md R48); past the list the step is `{0, 0}`
(log 19). -/
def Buffer.step (b : Buffer) (k : Nat) : PulseStep := b.steps.getD k PulseStep.blank

/-! ## The channel arrays -/

/-- `SRV.*[c]`; past the array, a channel that is off (log 19). -/
def servoAt (srv : List Servo) (c : Nat) : Servo :=
  srv.getD c { enabled := false, active := false, timerValue := 0#16 }

/-- `PPM.pulse_tick[j]`; past the array, 0 (log 19). -/
def Ppm.pulse (p : Ppm) (j : Nat) : Tick := p.pulseTick.getD j 0#16

/-! ## The block's own next step -/

/-- The highest enabled handler step, in the priority of 60_exceptions.md R145 (log 5). -/
def handlerStep (s : State) : Option Instr :=
  if timerIsrReady s then some .evTimerIsr
  else if edgeIsrClrReady s then some .evEdgeIsrClr
  else if edgeIsrReady s then some .evEdgeIsr
  else none

/-- The enabled step of the drain, the task's own: it ends only on an empty ring, however many it takes
(70_reset_and_hazards.md R181). -/
def drainStep (s : State) : Option Instr :=
  if decodeOneReady s then some .evDecodeOne
  else if decodeEndReady s then some .evDecodeEnd
  else none

/-- The highest enabled step of the block itself, in the priority of R145: the timer handler, the edge handler, the
task's drain. `step` takes it when no offered move is enabled, so a pending handler and a drain go on (R160; log 5). -/
def pendingStep (s : State) : Option Instr :=
  match handlerStep s with
  | some i => some i
  | none => drainStep s

/-- The environment and the host offer the moves of `cycle` again, after those still waiting (R160; log 33). -/
def State.refill (s : State) : State := s.setOffers (s.offers ++ s.cycle)

end Sys2Proof.Machine
end

