-- ==== Sys2Proof/Machine/Operands.lean ====
section
/-! DEFINITION. Every operand form of the commands and events: the counter a select names, the channel ranges, the
clamped pulse width, the port payload (30_encoding.md R77 to R79; 41_edge_capture.md R94; 44_servo_output.md R123). -/

namespace Sys2Proof.Machine

/-- The counter `sel` names: `TB_IN.cnt` or `TMR.cnt` (30_encoding.md R78). -/
def counter (sel : CounterSel) (s : State) : Tick :=
  match sel with
  | .input => s.tbIn
  | .output => s.tmr.cnt

/-- The wraparound-safe delta `(now - since) mod 2^16` (40_timebase.md R91, R92). -/
def elapsed (now since : Tick) : Tick := now - since

/-- A PPM command's channel is in range iff `ch < N_PPM` (30_encoding.md R77). -/
def ppmInRange (cfg : Config) (ch : Channel) : Bool := decide (ch.toNat < cfg.nPpm)

/-- A servo command's channel is in range iff `ch < N_SERVO` (30_encoding.md R77). -/
def srvInRange (cfg : Config) (ch : Channel) : Bool := decide (ch.toNat < cfg.nServo)

/-- `clamp(v, MIN_PULSE, MAX_PULSE)` (00_scope.md R11; 44_servo_output.md R123). -/
def clampPulse (cfg : Config) (v : Tick) : Tick :=
  BitVec.ofNat 16 (min (max v.toNat cfg.minPulse) cfg.maxPulse)

/-- The PORT_W bits of a payload: the port has PORT_W pins (41_edge_capture.md R94; log 13). -/
def portBits (cfg : Config) (p : PortMask) : PortMask := p % 2 ^ cfg.portW

end Sys2Proof.Machine
end

