-- ==== Sys2Proof/Machine/Flags.lean ====
section
/-! DEFINITION. The result word (30_encoding.md R82) and every condition that sets or clears a flag: the monitored
edge (41_edge_capture.md R94), the compare match (40_timebase.md R89), the level of an event, the sync gap and the
inactivity of the decoder (42_ppm_decoder.md R103, R106, R108). -/

namespace Sys2Proof.Machine

/-- `Result(ok, ill, act, val) = {ok, ill, 13'b0, act, val}` (R82). -/
def resultWord (ok ill act : Bool) (val : Tick) : Word32 :=
  BitVec.ofBool ok ++ BitVec.ofBool ill ++ 0#13 ++ BitVec.ofBool act ++ val

/-- The answer of a command that did what it names and returns no value. -/
def doneWord : Word32 := resultWord true false false 0#16

/-- The answer of a command that did nothing (out of range, busy, an input that cannot be set). -/
def failWord : Word32 := resultWord false false false 0#16

/-- The answer to an illegal command word, 0x40000000 (R81). -/
def illegalWord : Word32 := resultWord false true false 0#16

/-- The monitored bit of the port changes (R94). -/
def monitoredChange (cfg : Config) (old new : PortMask) : Bool := (old &&& cfg.ppmMask) != (new &&& cfg.ppmMask)

/-- The incremented counter equals the compare value (R89). -/
def compareMatch (cnt cmp : Tick) : Bool := cnt == cmp

/-- `level(ev)` of a snapshot (R103). -/
def level (cfg : Config) (snap : PortMask) : Bool := (snap &&& cfg.ppmMask) != 0

/-- A falling-to-falling interval above FRAME_SYNC_THRESHOLD is the sync gap (R106); an equal one is a pulse. -/
def isSyncGap (cfg : Config) (pulse : Tick) : Bool := decide (pulse.toNat > cfg.frameSyncThreshold)

/-- The watchdog expires (R108): strictly more than INACTIVITY_TIMEOUT since the last falling edge. -/
def inactive (cfg : Config) (now last : Tick) : Bool := decide ((elapsed now last).toNat > cfg.inactivityTimeout)

end Sys2Proof.Machine
end

