-- ==== Sys2Proof/Machine/EdgeCapture.lean ====
section
/-! DEFINITION. GPIO edge capture (41_edge_capture.md): the input port and the two steps of the edge handler. -/

namespace Sys2Proof.Machine

/-- `EV_PIN p` (R94): a change of the monitored bit sets `EDGE_FLAG`, never clears it. -/
def execEvPin (p : PortMask) (s : State) : Answer :=
  let new := portBits s.cfg p
  .next ((s.setEdgeFlag (s.edgeFlag || monitoredChange s.cfg s.inPort new)).setInPort new)

/-- `EV_EDGE_ISR` (R95): capture the tick and the whole port as they are now, and push them. -/
def execEvEdgeIsr (s : State) : Answer :=
  takeIf (edgeIsrReady s) s
    ((s.setRing (s.ring.push s.cfg.ringCap { ts := s.tbIn, snap := s.inPort })).setEdgePhase true)

/-- `EV_EDGE_ISR_CLR` (R96): clear the flag, also one set since the push (R101). -/
def execEvEdgeIsrClr (s : State) : Answer :=
  takeIf (edgeIsrClrReady s) s ((s.setEdgeFlag false).setEdgePhase false)

end Sys2Proof.Machine
end

