-- ==== Sys2Proof/Machine/PpmDecoder.lean ====
section
/-! DEFINITION. The PPM decoder (42_ppm_decoder.md): the drain, the frame cursor, the watchdog and the input hooks. -/

namespace Sys2Proof.Machine

/-- A channel pulse (R105, R107): stored at the cursor, or discarded when the frame is full; `active` is set either
way. -/
def Ppm.channelPulse (nPpm : Nat) (p : Ppm) (pulse : Tick) : Ppm :=
  if p.index < nPpm then
    { p with pulseTick := p.pulseTick.set p.index pulse, index := p.index + 1, active := true }
  else { p with active := true }

/-- The event is a falling edge whose interval is a channel pulse, not a sync gap (R105, R109). -/
def Ppm.isChannelPulse (cfg : Config) (p : Ppm) (ev : EdgeEvent) : Bool :=
  p.prevLevel && !level cfg ev.snap && !isSyncGap cfg (elapsed ev.ts p.lastToggleTime)

/-- A falling edge at `ts` (R106): a sync gap restarts the frame, another interval is a channel pulse; either way the
edge is the new start of measurement. -/
def Ppm.fallingEdge (cfg : Config) (p : Ppm) (ts : Tick) : Ppm :=
  let pulse := elapsed ts p.lastToggleTime
  let measured := if isSyncGap cfg pulse then { p with index := 0 } else p.channelPulse cfg.nPpm pulse
  { measured with prevLevel := false, lastToggleTime := ts }

/-- Decode one event (R103, R105): a non-transition is ignored, a rising edge only moves `prev_level`. -/
def Ppm.decodeEvent (cfg : Config) (p : Ppm) (ev : EdgeEvent) : Ppm :=
  if level cfg ev.snap == p.prevLevel then p
  else if level cfg ev.snap then { p with prevLevel := true }
  else p.fallingEdge cfg ev.ts

/-- `PPM_PRE` (R104): start the drain. -/
def execPpmPre (s : State) : Answer := command s (s.setDecPhase true) doneWord

/-- `EV_DECODE_ONE` (R105): pop the oldest event and decode it. -/
def execEvDecodeOne (s : State) : Answer :=
  takeIf (decodeOneReady s) s
    (match s.ring.pop s.cfg.ringCap with
      | none => s
      | some (ev, ring) => (s.setRing ring).setPpm (s.ppm.decodeEvent s.cfg ev))

/-- The watchdog (R108): `active` is only ever cleared here. -/
def Ppm.watchdog (cfg : Config) (p : Ppm) (now : Tick) : Ppm :=
  if inactive cfg now p.lastToggleTime then { p with active := false } else p

/-- `EV_DECODE_END` (R108): the watchdog and the end of the drain. -/
def execEvDecodeEnd (s : State) : Answer :=
  takeIf (decodeEndReady s) s ((s.setPpm (s.ppm.watchdog s.cfg s.tbIn)).setDecPhase false)

/-- `PPM_GET ch` (R110). -/
def execPpmGet (ch : Channel) (s : State) : Answer :=
  command s s
    (if ppmInRange s.cfg ch then resultWord true false s.ppm.active (s.ppm.pulse ch.toNat) else failWord)

/-- `PPM_SET ch, value, active` (R111): an input channel cannot be set; the operands are ignored. -/
def execPpmSet (_ch : Channel) (_value : Tick) (_active : Bool) (s : State) : Answer := command s s failWord

/-- `PPM_POST` (R112): the input side has nothing to publish. -/
def execPpmPost (s : State) : Answer := command s s doneWord

end Sys2Proof.Machine
end

