-- ==== Sys2Proof/Machine/Admission.lean ====
section
/-! DEFINITION. The well-formedness checks of a configuration (00_scope.md R6), by name. -/

namespace Sys2Proof.Machine

/-- Exactly one bit set, below bit `w`. -/
def oneHotBelow (w : Nat) (m : PortMask) : Bool := (List.range w).any (fun b => m == 2 ^ b)

/-- `ceil(a / b)` (00_scope.md R11). -/
def ceilDiv (a b : Nat) : Nat := (a + b - 1) / b

/-- `PIN_MASK[c]` for `c < N_SERVO`. -/
def servoPins (cfg : Config) : List PortMask := (List.range cfg.nServo).map cfg.pinMask

/-- Does the configuration pass the check (R6)? -/
def checkHolds (cfg : Config) (check : WfCheck) : Bool :=
  match check with
  | .wfRing => decide (2 ≤ cfg.ringCap) && cfg.ringCap == 2 ^ Nat.log2 cfg.ringCap
  | .wfPort => decide (1 ≤ cfg.portW) && oneHotBelow cfg.portW cfg.ppmMask
  | .wfPins => (servoPins cfg).all (oneHotBelow cfg.portW) && decide (servoPins cfg).Nodup
  | .wfCounts =>
    decide (1 ≤ cfg.nServo) && decide (cfg.nServo ≤ 24) && decide (1 ≤ cfg.nPpm) && decide (cfg.nPpm ≤ 31)
      && decide (1 ≤ cfg.kLanes)
  | .wfPulse => decide (1 ≤ cfg.minPulse) && decide (cfg.minPulse ≤ cfg.maxPulse) && decide (cfg.maxPulse ≤ 65535)
  | .wfPeriod =>
    decide (ceilDiv cfg.nServo cfg.kLanes * cfg.maxPulse < cfg.refreshPeriod) && decide (cfg.refreshPeriod ≤ 65535)
  | .wfThresh => decide (cfg.frameSyncThreshold ≤ 65535) && decide (cfg.inactivityTimeout ≤ 65535)

/-- The check a configuration fails, the first in the order of R6 (log 18); none if it is admitted. -/
def failedCheck (cfg : Config) : Option WfCheck := WfCheck.all.find? (fun c => !checkHolds cfg c)

end Sys2Proof.Machine
end

