-- ==== Sys2Proof/Machine/ResetUnit.lean ====
section
/-! DEFINITION. `EV_RESET` (70_reset_and_hazards.md R161, R162, R164). -/

namespace Sys2Proof.Machine

/-- What reset leaves (R161): ring slots, buffer 1, the steps of buffer 0 past its first, the input port and the
configuration are kept; the input counter is drawn afresh (R164; log 7). -/
def resetState (s : State) : State :=
  { s with
    outPort := 0
    outDrive := 0
    tbIn := Config.freeTick s.draws
    tmr := { cnt := 0#16, cmp := 1#16, flag := false, stepIdx := 0 }
    edgeFlag := false
    edgePhase := false
    decPhase := false
    ring := { s.ring with wr := 0, rd := 0 }
    ppm := { pulseTick := List.replicate s.cfg.nPpm 0#16, index := 0, prevLevel := false, lastToggleTime := 0#16,
             active := false }
    srv := (List.range s.cfg.nServo).map
      (fun c => { enabled := s.cfg.enableInit c, active := false, timerValue := BitVec.ofNat 16 s.cfg.minPulse })
    sched := { s.sched with
      buf0 := s.sched.buf0.load [PulseStep.idle s.cfg] 0
      cur := false
      nextPending := false }
    rsp := 0#32
    draws := s.draws + 1 }

/-- `EV_RESET` (R161): a configuration that fails a check is refused by the check's name (60_exceptions.md R140). -/
def execEvReset (s : State) : Answer :=
  match failedCheck s.cfg with
  | some check => .refused (.invalidConfig check)
  | none => .next (resetState s)

end Sys2Proof.Machine
end

