-- ==== Sys2Proof/Machine/Builder.lean ====
section
/-! DEFINITION. The pulse schedule builder (43_schedule_builder.md R113 to R119): `Build`, a function of the servo
configuration. Times are exact numbers, narrowed to a Tick where a step is written (log 25). -/

namespace Sys2Proof.Machine

/-- XOR of masks. -/
def xorMasks (ms : List PortMask) : PortMask := ms.foldr (fun m acc => m ^^^ acc) 0

/-- OR of masks. -/
def orMasks (ms : List PortMask) : PortMask := ms.foldr (fun m acc => m ||| acc) 0

/-- `timer_value[c]` in ticks. -/
def pulseWidth (srv : List Servo) (c : Nat) : Nat := (servoAt srv c).timerValue.toNat

/-- `L`: the channels both enabled and active, ascending (R115). -/
def dealtChannels (cfg : Config) (srv : List Servo) : List Nat :=
  (List.range cfg.nServo).filter (fun c => (servoAt srv c).enabled && (servoAt srv c).active)

/-- `lane[k]`: the channels `L[j]` with `j mod K_LANES = k`, in order of `j` (R115). -/
def laneChannels (kLanes : Nat) (dealt : List Nat) (k : Nat) : List Nat :=
  (dealt.zipIdx.filter (fun x => x.2 % kLanes == k)).map Prod.fst

/-- A lane during the build: `t[k]`, and its channels from the current one on. -/
structure LaneCursor where
  left : Nat
  queue : List Nat
  deriving DecidableEq, Repr

/-- A lane whose current channel is the first of `queue`, just started. -/
def LaneCursor.start (width : Nat → Nat) (queue : List Nat) : LaneCursor :=
  match queue with
  | [] => { left := 0, queue := [] }
  | c :: rest => { left := width c, queue := c :: rest }

/-- The pin of the lane's current channel; 0 for a lane that is done. -/
def LaneCursor.headPin (pin : Nat → PortMask) (l : LaneCursor) : PortMask :=
  match l.queue with
  | [] => 0
  | c :: _ => pin c

/-- One lane after `d` ticks (R117): when its current channel ends, the next one starts. -/
def LaneCursor.advance (width : Nat → Nat) (d : Nat) (l : LaneCursor) : LaneCursor :=
  match l.queue with
  | [] => l
  | c :: rest => if l.left - d = 0 then LaneCursor.start width rest else { left := l.left - d, queue := c :: rest }

/-- The lane's toggles after `d` ticks (R117): the pin of the channel that ends and of the one that starts. -/
def LaneCursor.toggles (pin : Nat → PortMask) (width : Nat → Nat) (d : Nat) (l : LaneCursor) : PortMask :=
  match l.queue with
  | [] => 0
  | c :: rest => if l.left - d = 0 then pin c ^^^ (LaneCursor.start width rest).headPin pin else 0

/-- `min { t[k] | p[k] < length(lane[k]) }`; none when every lane is done (R117). -/
def nextEvent (lanes : List LaneCursor) : Option Nat :=
  ((lanes.filter (fun l => !l.queue.isEmpty)).map LaneCursor.left).min?

/-- `REFRESH_PERIOD - sum`, a subtraction on Ticks (R118; 00_scope.md R11). -/
def padTicks (cfg : Config) (sum : Nat) : Tick := BitVec.ofNat 16 cfg.refreshPeriod - BitVec.ofNat 16 sum

/-- The steps from the event at time `sum` on, whose toggles are `mask` (R117, R118). Every event ends a pulse, so the
number of channels dealt bounds the events: `fuel` is that number, and at 0 every lane is done. -/
def buildSteps (cfg : Config) (width : Nat → Nat) : Nat → List LaneCursor → PortMask → Nat → List PulseStep
  | 0, _, mask, sum => [{ mask := mask, ticks := padTicks cfg sum }]
  | fuel + 1, lanes, mask, sum =>
    match nextEvent lanes with
    | none => [{ mask := mask, ticks := padTicks cfg sum }]
    | some d =>
      { mask := mask, ticks := BitVec.ofNat 16 d } ::
        buildSteps cfg width fuel (lanes.map (LaneCursor.advance width d))
          (xorMasks (lanes.map (LaneCursor.toggles cfg.pinMask width d))) (sum + d)

/-- The lanes at the period boundary, each with its first channel started (R116). -/
def startLanes (cfg : Config) (srv : List Servo) : List LaneCursor :=
  (List.range cfg.kLanes).map
    (fun k => LaneCursor.start (pulseWidth srv) (laneChannels cfg.kLanes (dealtChannels cfg srv) k))

/-- `step[0..len-1]` of `Build` (R114). -/
def scheduleSteps (cfg : Config) (srv : List Servo) : List PulseStep :=
  buildSteps cfg (pulseWidth srv) (dealtChannels cfg srv).length (startLanes cfg srv)
    (xorMasks ((startLanes cfg srv).map (LaneCursor.headPin cfg.pinMask))) 0

/-- `drive` of `Build` (R119): the pins of the enabled channels, active or not. -/
def scheduleDrive (cfg : Config) (srv : List Servo) : PortMask :=
  orMasks (((List.range cfg.nServo).filter (fun c => (servoAt srv c).enabled)).map cfg.pinMask)

end Sys2Proof.Machine
end

