-- ==== Sys2Proof/Machine/ServoOutput.lean ====
section
/-! DEFINITION. Servo output (44_servo_output.md): the channel commands, the publish, and the timer-compare engine. -/

namespace Sys2Proof.Machine

/-- A servo command that writes channel `ch`: a channel out of range is a no-op (R123, R125). -/
def setChannel (ch : Channel) (f : Servo → Servo) (s : State) : Answer :=
  if srvInRange s.cfg ch then
    command s (s.setSrv (s.srv.set ch.toNat (f (servoAt s.srv ch.toNat)))) doneWord
  else command s s failWord

/-- `SRV_SET ch, value, active` (R123): the width is clamped as it is stored. -/
def execSrvSet (ch : Channel) (value : Tick) (active : Bool) (s : State) : Answer :=
  setChannel ch (fun x => { x with timerValue := clampPulse s.cfg value, active := active }) s

/-- `SRV_GET ch` (R124): the configuration, not what is on the pin. -/
def execSrvGet (ch : Channel) (s : State) : Answer :=
  command s s
    (if srvInRange s.cfg ch then
      resultWord true false (servoAt s.srv ch.toNat).active (servoAt s.srv ch.toNat).timerValue
    else failWord)

/-- `CFG_ENABLE ch, enabled` (R125). -/
def execCfgEnable (ch : Channel) (en : Bool) (s : State) : Answer :=
  setChannel ch (fun x => { x with enabled := en }) s

/-- `SRV_PRE` (R126): the output side has nothing to drain. -/
def execSrvPre (s : State) : Answer := command s s doneWord

/-- Build into the standby buffer and publish it as next (R127, R133). -/
def Sched.publish (d : Sched) (steps : List PulseStep) (drive : PortMask) : Sched :=
  { d.setBuffer (!d.cur) (d.standby.load steps drive) with nextPending := true }

/-- `SRV_POST` (R127): fails while the standby buffer holds a schedule the engine has not taken. -/
def execSrvPost (s : State) : Answer :=
  if s.sched.nextPending then command s s failWord
  else command s (s.setSched (s.sched.publish (scheduleSteps s.cfg s.srv) (scheduleDrive s.cfg s.srv))) doneWord

/-- The firing executes the last step of the current schedule (R129). -/
def atLastStep (s : State) : Bool := s.tmr.stepIdx + 1 == s.sched.current.len

/-- The step the firing executes (R129). -/
def firingStep (s : State) : PulseStep := s.sched.current.step s.tmr.stepIdx

/-- The swap at the end of a schedule (R130): a published schedule becomes current. -/
def Sched.swap (d : Sched) : Sched :=
  if d.nextPending then { d with cur := !d.cur, nextPending := false } else d

/-- One firing (R129): compare and counter, port toggle, next step, swap or repeat (R130, R131). -/
def fire (s : State) : State :=
  let st := firingStep s
  let last := atLastStep s
  let tmr : Timer := { cnt := 0#16, cmp := st.ticks, flag := false, stepIdx := if last then 0 else s.tmr.stepIdx + 1 }
  let drive := if last && s.sched.nextPending then s.sched.standby.drive else s.outDrive
  let sched := if last then s.sched.swap else s.sched
  (((s.setTmr tmr).setOutPort (s.outPort ^^^ st.mask)).setSched sched).setOutDrive drive

/-- `EV_TIMER_ISR` (R129). -/
def execEvTimerIsr (s : State) : Answer := takeIf (timerIsrReady s) s (fire s)

end Sys2Proof.Machine
end

