-- ==== Sys2Proof/Machine/TimeBase.lean ====
section
/-! DEFINITION. TimeBase (40_timebase.md): the two tick counters and the commands that read them. -/

namespace Sys2Proof.Machine

/-- `TB_NOW sel` (R90): read a counter. -/
def execTbNow (sel : CounterSel) (s : State) : Answer :=
  command s s (resultWord true false false (counter sel s))

/-- `TB_ELAPSED sel, since` (R91): the wraparound-safe delta. -/
def execTbElapsed (sel : CounterSel) (since : Tick) (s : State) : Answer :=
  command s s (resultWord true false false (elapsed (counter sel s) since))

/-- `EV_TICK_IN` (R88). -/
def execEvTickIn (s : State) : Answer := .next (s.setTbIn (s.tbIn + 1#16))

/-- One output tick of the compare unit: the flag is only ever set here (R89). -/
def Timer.tick (t : Timer) : Timer :=
  { t with cnt := t.cnt + 1#16, flag := t.flag || compareMatch (t.cnt + 1#16) t.cmp }

/-- `EV_TICK_OUT` (R89). -/
def execEvTickOut (s : State) : Answer := .next (s.setTmr s.tmr.tick)

end Sys2Proof.Machine
end

