-- ==== Sys2Proof/Machine/Dispatch.lean ====
section
/-! DEFINITION. One arm per instruction: the meaning of each row of spec/opcode_table.json. -/

namespace Sys2Proof.Machine

def exec (i : Instr) (s : State) : Host.Outcome State Fault Refusal :=
  match i with
  | .tbNow sel => Sys2Proof.Machine.execTbNow sel s
  | .tbElapsed sel since => Sys2Proof.Machine.execTbElapsed sel since s
  | .ppmPre => Sys2Proof.Machine.execPpmPre s
  | .ppmGet ch => Sys2Proof.Machine.execPpmGet ch s
  | .ppmSet ch value active => Sys2Proof.Machine.execPpmSet ch value active s
  | .ppmPost => Sys2Proof.Machine.execPpmPost s
  | .srvPre => Sys2Proof.Machine.execSrvPre s
  | .srvGet ch => Sys2Proof.Machine.execSrvGet ch s
  | .srvSet ch value active => Sys2Proof.Machine.execSrvSet ch value active s
  | .srvPost => Sys2Proof.Machine.execSrvPost s
  | .cfgEnable ch en => Sys2Proof.Machine.execCfgEnable ch en s
  | .evTickIn => Sys2Proof.Machine.execEvTickIn s
  | .evTickOut => Sys2Proof.Machine.execEvTickOut s
  | .evPin p => Sys2Proof.Machine.execEvPin p s
  | .evEdgeIsr => Sys2Proof.Machine.execEvEdgeIsr s
  | .evEdgeIsrClr => Sys2Proof.Machine.execEvEdgeIsrClr s
  | .evTimerIsr => Sys2Proof.Machine.execEvTimerIsr s
  | .evDecodeOne => Sys2Proof.Machine.execEvDecodeOne s
  | .evDecodeEnd => Sys2Proof.Machine.execEvDecodeEnd s
  | .evReset => Sys2Proof.Machine.execEvReset s

end Sys2Proof.Machine
end

