-- ==== Sys2Proof/Machine/Fetch.lean ====
section
/-! DEFINITION. How a step takes a move: which offered move is enabled first (60_exceptions.md R146, R147), what an
illegal command word does (30_encoding.md R81), and how one offer is placed so that the next step takes it. -/

namespace Sys2Proof.Machine

/-- An illegal command word writes `RSP = 0x40000000` and nothing else (R81). It is a command of `TASK` and waits like
one (log 17). -/
def execIllegal (s : State) : Answer := command s s illegalWord

/-- An offer the block can act on now: an enabled instruction, an illegal word when a command may run, or an event code
that is no event, which `runOffer` refuses. -/
def offerReady (s : State) (o : Offer) : Bool :=
  match decode o with
  | .ok i => enabled i s
  | .error (.notAnEvent _) => true
  | .error .illegalOpcode => taskReady s
  | .error .illegalFixedField => taskReady s

/-- The first offer the block can act on, and the offers without it, in their order (log 3). -/
def takeOffer (s : State) : List Offer → Option (Offer × List Offer)
  | [] => none
  | o :: rest =>
    if offerReady s o then some (o, rest)
    else match takeOffer s rest with
      | some (o', rest') => some (o', o :: rest')
      | none => none

/-- Run one offer. -/
def runOffer (o : Offer) (s : State) : Answer :=
  match decode o with
  | .ok i => exec i s
  | .error (.notAnEvent code) => .refused (.notAnEvent code)
  | .error .illegalOpcode => execIllegal s
  | .error .illegalFixedField => execIllegal s

/-- With no offer to act on: a pending handler runs; with none pending, the drain takes one step, if there is a drain,
and the environment offers again (60_exceptions.md R160; log 5, 6, 33). So every handler is served before the next
offers come, and edges may come between any two steps of a drain (70_reset_and_hazards.md R181). -/
def runPending (s : State) : Answer :=
  match handlerStep s with
  | some i => exec i s
  | none =>
    match drainStep s with
    | some i => exec i s.refill
    | none => .next s.refill

/-- The move the next step takes: an offer, or the block's own pending step as its encoding. -/
def nextMove (s : State) : Option Offer :=
  match takeOffer s s.offers with
  | some (o, _) => some o
  | none => (pendingStep s).map encode

/-- One step of the machine. -/
def stepOnce (s : State) : Answer :=
  match takeOffer s s.offers with
  | some (o, rest) => runOffer o (s.setOffers rest)
  | none => runPending s

/-! ## Placing one offer -/

/-- The state in which a `TASK` command may run. -/
def idleTask (s : State) : State := (s.setDecPhase false).setEdgePhase false

/-- The state in which the drain's steps may run. -/
def draining (s : State) : State := (s.setDecPhase true).setEdgePhase false

/-- The nearest state in which R146 enables the instruction (log 22). -/
def enableFor (i : Instr) (s : State) : State :=
  match i with
  | .evTickIn => s
  | .evTickOut => s
  | .evPin _ => s
  | .evReset => s
  | .evTimerIsr => s.setTmr { s.tmr with flag := true }
  | .evEdgeIsr => (s.setEdgeFlag true).setEdgePhase false
  | .evEdgeIsrClr => s.setEdgePhase true
  | .evDecodeOne =>
    draining (if s.ring.isEmpty then s.setRing { s.ring with wr := ringNext s.cfg.ringCap s.ring.rd } else s)
  | .evDecodeEnd => draining (s.setRing { s.ring with wr := s.ring.rd })
  | .tbNow _ => idleTask s
  | .tbElapsed _ _ => idleTask s
  | .ppmPre => idleTask s
  | .ppmGet _ => idleTask s
  | .ppmSet _ _ _ => idleTask s
  | .ppmPost => idleTask s
  | .srvPre => idleTask s
  | .srvGet _ => idleTask s
  | .srvSet _ _ _ => idleTask s
  | .srvPost => idleTask s
  | .cfgEnable _ _ => idleTask s

/-- `o` becomes the oldest offer, in a state that lets the next step act on it. -/
def placeOffer (o : Offer) (s : State) : State :=
  (match decode o with
    | .ok i => enableFor i s
    | .error _ => idleTask s).setOffers (o :: s.offers)

/-- A word of the opcode table's numbering becomes the oldest offer. -/
def placeTableWord (s : State) (nbits w : Nat) : State :=
  match offerOfTableWord nbits w with
  | some o => placeOffer o s
  | none => s

end Sys2Proof.Machine
end

