-- ==== Sys2Proof/Machine/Step.lean ====
section
/-! DEFINITION. One step of the machine, and the placing of one instruction as its next step (Machine/Fetch.lean). -/

namespace Sys2Proof.Machine

/-- One step: the first enabled offer, else the block's own pending step, else the environment's next offers. -/
def step (s : State) : Host.Outcome State Fault Refusal := stepOnce s

/-- `s` with the instruction of a table word offered first, in a state that lets the very next step run it (log 22). -/
def State.withFetchWord (s : State) (nbits w : Nat) : State := placeTableWord s nbits w

end Sys2Proof.Machine
end

