-- ==== Sys2Proof/Machine/Macros.lean ====
section
/-! DEFINITION. The pseudo-instructions and the `@` events of a test program (30_encoding.md R85, R86), each by its
expansion, and the running of a sequence of steps one after another. A test program's command that is not enabled waits
(log 34). -/

namespace Sys2Proof.Machine

/-- One line of a test program: a command or event, or one of the pseudo-instructions of R85 and R86. -/
inductive Macro where
  | one (i : Instr)
  | pre
  | post
  | apply
  | now
  | tickIn (n : Nat)
  | tickOut (n : Nat)
  | pin (p : PortMask)
  | edgeIsr
  | ppmPre
  | reset
  deriving DecidableEq, Repr

/-- `EV_TICK_OUT`, then `EV_TIMER_ISR` if `TMR_FLAG = 1`, `n` times (R86). A firing that is not enabled is no move, so
the condition needs no word of its own. -/
def ticksServiced : Nat → List Instr
  | 0 => []
  | n + 1 => .evTickOut :: .evTimerIsr :: ticksServiced n

/-- The expansion of R86, in the state the line starts from (`@PPM_PRE` decodes the events then in the ring). -/
def Macro.expand (m : Macro) (s : State) : List Instr :=
  match m with
  | .one i => [i]
  | .pre => [.ppmPre, .srvPre]
  | .post => [.ppmPost, .srvPost]
  | .apply => [.srvPost]
  | .now => [.tbNow .input]
  | .tickIn n => List.replicate n .evTickIn
  | .tickOut n => ticksServiced n
  | .pin p => [.evPin p]
  | .edgeIsr => [.evEdgeIsr, .evEdgeIsrClr]
  | .ppmPre => .ppmPre :: (List.replicate (s.ring.count s.cfg.ringCap) .evDecodeOne ++ [.evDecodeEnd])
  | .reset => [.evReset]

/-- Take the steps in order, with no other step between and no waiting: a step that is not enabled changes nothing
(log 4). The first refusal ends it. -/
def runInstrs : List Instr → State → Answer
  | [], s => .next s
  | i :: rest, s =>
    match exec i s with
    | .next t => runInstrs rest t
    | .fault r => .fault r
    | .refused r => .refused r

/-- What a `TASK` command that is not enabled waits for: the edge handler's return, then the drain's next step. -/
def taskBlocker (s : State) : Option Instr := if edgeIsrClrReady s then some .evEdgeIsrClr else drainStep s

/-- "the host must wait" (93_implementation_defined.md U23): the steps that bring the task back, at most `fuel`, and no
other step between (the model's choice, log 34). -/
def awaitTask : Nat → State → Answer
  | 0, s => .next s
  | fuel + 1, s =>
    match taskBlocker s with
    | none => .next s
    | some i =>
      match exec i s with
      | .next t => awaitTask fuel t
      | .fault r => .fault r
      | .refused r => .refused r

/-- The instruction is a command of `TASK`. -/
def isCommand (i : Instr) : Bool :=
  match encode i with
  | .command _ => true
  | .event _ _ => false

/-- Before a command, its wait: the edge handler's return, a step for each event in the ring, and the drain's end. -/
def beforeLine (i : Instr) (s : State) : Answer :=
  if isCommand i then awaitTask (s.ring.count s.cfg.ringCap + 2) s else .next s

/-- Take the steps of a line in order, each command waiting until it is enabled (log 34). -/
def runLine : List Instr → State → Answer
  | [], s => .next s
  | i :: rest, s =>
    match beforeLine i s with
    | .fault r => .fault r
    | .refused r => .refused r
    | .next t =>
      match exec i t with
      | .next u => runLine rest u
      | .fault r => .fault r
      | .refused r => .refused r

/-- Run one line. R86 gives `PRE` no drain steps between `PPM_PRE` and `SRV_PRE`: `SRV_PRE` waits for the drain that
`PPM_PRE` starts, and so does any later command of the program (the model's choice, log 34). -/
def runMacro (m : Macro) (s : State) : Answer := runLine (m.expand s) s

end Sys2Proof.Machine
end

