-- ==== Sys2Proof/Machine/Assembler.lean ====
section
/-! DEFINITION. The assembler syntax of 30_encoding.md R85: one command or `@` event per line, `;` starts a comment,
operands are decimal or `0x` hexadecimal. -/

namespace Sys2Proof.Machine

/-- A line up to its comment. -/
def uncommented (cs : List Char) : List Char := cs.takeWhile (fun c => c != ';')

def isBlank (c : Char) : Bool := c == ' ' || c == '\t'

/-- The words of a line, a comma being a word of its own; `acc` is the word being read, last character first. -/
def wordsFrom : List Char → List Char → List String
  | acc, [] => if acc.isEmpty then [] else [String.ofList acc.reverse]
  | acc, c :: cs =>
    if isBlank c || c == ',' then
      (if acc.isEmpty then [] else [String.ofList acc.reverse]) ++ (if c == ',' then [","] else []) ++ wordsFrom [] cs
    else wordsFrom (c :: acc) cs

def decDigit (c : Char) : Option Nat :=
  if decide ('0' ≤ c) && decide (c ≤ '9') then some (c.toNat - '0'.toNat) else none

def hexDigit (c : Char) : Option Nat :=
  if decide ('0' ≤ c) && decide (c ≤ '9') then some (c.toNat - '0'.toNat)
  else if decide ('a' ≤ c) && decide (c ≤ 'f') then some (c.toNat - 'a'.toNat + 10)
  else if decide ('A' ≤ c) && decide (c ≤ 'F') then some (c.toNat - 'A'.toNat + 10)
  else none

/-- The value of digits of a base, after `acc`. -/
def digits (base : Nat) (digit : Char → Option Nat) : Nat → List Char → Option Nat
  | acc, [] => some acc
  | acc, c :: cs =>
    match digit c with
    | some d => digits base digit (acc * base + d) cs
    | none => none

/-- A number, decimal or `0x` hexadecimal. -/
def number (w : String) : Option Nat :=
  match w.toList with
  | [] => none
  | ['0', 'x'] => none
  | '0' :: 'x' :: cs => digits 16 hexDigit 0 cs
  | cs => digits 10 decDigit 0 cs

/-- A channel operand, `0..31`. -/
def channelOperand (w : String) : Option Channel :=
  match number w with
  | some n => if n ≤ 31 then some (BitVec.ofNat 5 n) else none
  | none => none

/-- A Tick operand. -/
def tickOperand (w : String) : Option Tick :=
  match number w with
  | some n => if n ≤ 65535 then some (BitVec.ofNat 16 n) else none
  | none => none

/-- A boolean operand, `0` or `1`. -/
def boolOperand (w : String) : Option Bool :=
  match number w with
  | some 0 => some false
  | some 1 => some true
  | _ => none

/-- A counter select, `in` or `out`. -/
def selOperand (w : String) : Option CounterSel :=
  if w == "in" then some .input else if w == "out" then some .output else none

/-- One line of R85 from its words; a line of no words is empty. -/
def assembleWords : List String → Option (List Macro)
  | [] => some []
  | ["PPM_PRE"] => some [.one .ppmPre]
  | ["PPM_POST"] => some [.one .ppmPost]
  | ["SRV_PRE"] => some [.one .srvPre]
  | ["SRV_POST"] => some [.one .srvPost]
  | ["PRE"] => some [.pre]
  | ["POST"] => some [.post]
  | ["APPLY"] => some [.apply]
  | ["NOW"] => some [.now]
  | ["@EDGE_ISR"] => some [.edgeIsr]
  | ["@PPM_PRE"] => some [.ppmPre]
  | ["@RESET"] => some [.reset]
  | [m, x] =>
    if m == "TB_NOW" then (selOperand x).map (fun sel => [.one (.tbNow sel)])
    else if m == "PPM_GET" then (channelOperand x).map (fun ch => [.one (.ppmGet ch)])
    else if m == "SRV_GET" then (channelOperand x).map (fun ch => [.one (.srvGet ch)])
    else if m == "@TICK_IN" then (number x).map (fun n => [.tickIn n])
    else if m == "@TICK_OUT" then (number x).map (fun n => [.tickOut n])
    else if m == "@PIN" then (number x).map (fun p => [.pin p])
    else none
  | [m, x, ",", y] =>
    if m == "TB_ELAPSED" then
      match selOperand x, tickOperand y with
      | some sel, some since => some [.one (.tbElapsed sel since)]
      | _, _ => none
    else if m == "CFG_ENABLE" then
      match channelOperand x, boolOperand y with
      | some ch, some en => some [.one (.cfgEnable ch en)]
      | _, _ => none
    else none
  | [m, x, ",", y, ",", z] =>
    match channelOperand x, tickOperand y, boolOperand z with
    | some ch, some v, some a =>
      if m == "PPM_SET" then some [.one (.ppmSet ch v a)]
      else if m == "SRV_SET" then some [.one (.srvSet ch v a)]
      else none
    | _, _, _ => none
  | _ => none

/-- Assemble one line (R85). -/
def assembleLine (line : String) : Option (List Macro) := assembleWords (wordsFrom [] (uncommented line.toList))

/-- A program, one list of lines (R86: each line runs from the state the line before it left). -/
def runMacros : List Macro → State → Answer
  | [], s => .next s
  | m :: rest, s =>
    match runMacro m s with
    | .next t => runMacros rest t
    | .fault r => .fault r
    | .refused r => .refused r

end Sys2Proof.Machine
end

