-- ==== Sys2Proof/Machine/Conditions.lean ====
section
/-! DEFINITION. The condition codes of 60_exceptions.md R138: names for a model and a trace. The block has no cause
register, so no step reads or writes one; what a command reports stands in its result word (R139). -/

namespace Sys2Proof.Machine

/-- The conditions of R138. -/
inductive Condition where
  /-- Code 1. A noise pulse is a channel pulse like any other, so nothing in the block tells it apart (log 28). -/
  | spurious
  | signalLoss
  | applyBusy
  | range
  | ringFull
  | illegal
  | frameOverflow
  deriving DecidableEq, Repr

def Condition.code : Condition → Nat
  | .spurious => 1
  | .signalLoss => 2
  | .applyBusy => 3
  | .range => 4
  | .ringFull => 5
  | .illegal => 6
  | .frameOverflow => 7

/-- The condition an enabled instruction raises in a state (R138). -/
def instrCondition (i : Instr) (s : State) : Option Condition :=
  match i with
  | .evDecodeOne =>
    match s.ring.pop s.cfg.ringCap with
    | none => none
    | some (ev, _) =>
      if s.ppm.isChannelPulse s.cfg ev && decide (s.cfg.nPpm ≤ s.ppm.index) then some .frameOverflow else none
  | .evDecodeEnd => if inactive s.cfg s.tbIn s.ppm.lastToggleTime then some .signalLoss else none
  | .srvPost => if s.sched.nextPending then some .applyBusy else none
  | .ppmGet ch => if ppmInRange s.cfg ch then none else some .range
  | .srvGet ch => if srvInRange s.cfg ch then none else some .range
  | .srvSet ch _ _ => if srvInRange s.cfg ch then none else some .range
  | .cfgEnable ch _ => if srvInRange s.cfg ch then none else some .range
  | .evEdgeIsr => if s.ring.isFull s.cfg.ringCap then some .ringFull else none
  | .tbNow _ => none
  | .tbElapsed _ _ => none
  | .ppmPre => none
  | .ppmSet _ _ _ => none
  | .ppmPost => none
  | .srvPre => none
  | .evTickIn => none
  | .evTickOut => none
  | .evPin _ => none
  | .evEdgeIsrClr => none
  | .evTimerIsr => none
  | .evReset => none

/-- The condition an offer raises; an illegal word raises condition 6 and nothing else (R139). -/
def offerCondition (o : Offer) (s : State) : Option Condition :=
  match decode o with
  | .ok i => instrCondition i s
  | .error (.notAnEvent _) => none
  | .error .illegalOpcode => some .illegal
  | .error .illegalFixedField => some .illegal

end Sys2Proof.Machine
end

