-- ==== Sys2Proof/Machine/Observe.lean ====
section
/-! DEFINITION. What a claim may observe over a run (60_exceptions.md R158): the sequence of `RSP` values, and the values
of `out_port` and `out_drive` with the output tick count between their changes. -/

namespace Sys2Proof.Machine

/-- One thing seen of the block. -/
inductive Observed where
  /-- A step wrote this value to `RSP`. -/
  | response (w : Word32)
  /-- `out_port` or `out_drive` changed to these values, `ticks` output ticks after the change before it, or after the
  start of the run. -/
  | outputs (ticks : Nat) (outPort outDrive : PortMask)
  deriving DecidableEq, Repr

/-- What has been seen so far, oldest first, and the output ticks since the last change of the outputs. -/
structure Trace where
  seen : List Observed
  ticks : Nat
  deriving DecidableEq, Repr

/-- Nothing seen yet. -/
def Trace.start : Trace := { seen := [], ticks := 0 }

/-- The step writes `RSP` (10_state.md R55): every command does, and reset does (log 35). -/
def writesRsp (o : Offer) : Bool :=
  match o with
  | .command _ => true
  | .event _ _ => decide (decode o = .ok .evReset)

/-- The step is an output tick. -/
def isTickOut (o : Offer) : Bool := decide (decode o = .ok .evTickOut)

/-- The trace after a step from `s` to `t`; `move` is none where only the environment's next offers came. -/
def Trace.record (tr : Trace) (move : Option Offer) (s t : State) : Trace :=
  let ticks := tr.ticks + (if move.any isTickOut then 1 else 0)
  let seen := tr.seen ++ (if move.any writesRsp then [.response t.rsp] else [])
  if t.outPort = s.outPort ∧ t.outDrive = s.outDrive then { seen := seen, ticks := ticks }
  else { seen := seen ++ [.outputs ticks t.outPort t.outDrive], ticks := 0 }

/-- The trace of a run of `k` steps, after `tr`; a refusal ends it. -/
def traceRun : Nat → State → Trace → Trace
  | 0, _, tr => tr
  | k + 1, s, tr =>
    match step s with
    | .next t => traceRun k t (tr.record (nextMove s) s t)
    | .fault _ => tr
    | .refused _ => tr

/-- The moves of a run of `k` steps, oldest first. -/
def movesRun : Nat → State → List Offer
  | 0, _ => []
  | k + 1, s =>
    match step s with
    | .next t => (nextMove s).toList ++ movesRun k t
    | .fault _ => []
    | .refused _ => []

/-- The values written to `RSP`, in order: two equal answers are two. -/
def Trace.responses (tr : Trace) : List Word32 :=
  tr.seen.filterMap fun x =>
    match x with
    | .response w => some w
    | .outputs _ _ _ => none

/-- The output ticks before each change of the outputs since the change before it, with the new values. -/
def Trace.changes (tr : Trace) : List (Nat × PortMask × PortMask) :=
  tr.seen.filterMap fun x =>
    match x with
    | .response _ => none
    | .outputs n p d => some (n, p, d)

/-- The output ticks of the whole run. -/
def Trace.totalTicks (tr : Trace) : Nat := (tr.changes.map Prod.fst).sum + tr.ticks

end Sys2Proof.Machine
end

