-- ==== Sys2Proof/Safety.lean ====
section
/-! DEFINITION. The terms claims use: an admitted configuration, the invariants of 10_state.md R53, what may be observed
(60_exceptions.md R158), the end of a run (70_reset_and_hazards.md R182), and how a schedule toggles a pin
(43_schedule_builder.md R113, R121). -/

namespace Sys2Proof.Machine

/-- The configuration passes every check of 00_scope.md R6. -/
abbrev Admitted (cfg : Config) : Prop := failedCheck cfg = none

/-- A schedule buffer of the right capacity, with masks of PORT_W bits. -/
abbrev Buffer.Fits (cfg : Config) (b : Buffer) : Prop :=
  b.steps.length = cfg.maxSteps ∧ b.drive < 2 ^ cfg.portW ∧ ∀ st ∈ b.steps, st.mask < 2 ^ cfg.portW

/-- R53(c): `1 <= len <= MAX_STEPS` and every `ticks` of the meaningful steps is in `1..65535`. -/
abbrev Buffer.Runnable (cfg : Config) (b : Buffer) : Prop :=
  1 ≤ b.len ∧ b.len ≤ cfg.maxSteps ∧ ∀ st ∈ b.steps.take b.len, 1 ≤ st.ticks.toNat

/-- R53(b) of one channel. -/
abbrev Servo.InBounds (cfg : Config) (x : Servo) : Prop :=
  cfg.minPulse ≤ x.timerValue.toNat ∧ x.timerValue.toNat ≤ cfg.maxPulse

/-- The ring's indices are below RING_CAP (R33, R34, R60), which bounds its events by `RING_CAP - 1` (R53(a)). -/
abbrev Ring.Fits (cfg : Config) (r : Ring) : Prop :=
  r.slots.length = cfg.ringCap ∧ r.wr < cfg.ringCap ∧ r.rd < cfg.ringCap ∧ ∀ ev ∈ r.slots, ev.snap < 2 ^ cfg.portW

/-- The invariants of 10_state.md R53(a) to (d), with the widths of the elements, the bound of `PPM.index` (R37), a
compare value that is never 0 (R28), and a published schedule that can run. -/
structure State.Inv (s : State) : Prop where
  admitted : Admitted s.cfg
  inPort : s.inPort < 2 ^ s.cfg.portW
  outPort : s.outPort < 2 ^ s.cfg.portW
  outDrive : s.outDrive < 2 ^ s.cfg.portW
  ring : s.ring.Fits s.cfg
  ppm : s.ppm.pulseTick.length = s.cfg.nPpm ∧ s.ppm.index ≤ s.cfg.nPpm
  srv : s.srv.length = s.cfg.nServo ∧ ∀ x ∈ s.srv, x.InBounds s.cfg
  buffers : s.sched.buf0.Fits s.cfg ∧ s.sched.buf1.Fits s.cfg
  current : s.sched.current.Runnable s.cfg
  published : s.sched.nextPending = true → s.sched.standby.Runnable s.cfg
  stepIdx : s.tmr.stepIdx < s.sched.current.len
  compare : s.tmr.cmp ≠ 0#16

/-- The masks of a buffer's meaningful steps, in order. -/
def Buffer.masks (b : Buffer) : List PortMask := (b.steps.take b.len).map PulseStep.mask

/-- The output latch holds exactly what the steps of the current schedule fired so far have toggled, and a schedule,
current or published, toggles every bit back by its end (44_servo_output.md R134; 10_state.md R53(e)). -/
structure State.OutInv (s : State) : Prop where
  latch : s.outPort = xorMasks (s.sched.current.masks.take s.tmr.stepIdx)
  current : xorMasks s.sched.current.masks = 0
  published : s.sched.nextPending = true → xorMasks s.sched.standby.masks = 0

/-- What a claim may observe (60_exceptions.md R158), the ports `rsp`, `out_port` and `out_drive` (10_state.md R22). -/
structure Observation where
  rsp : Word32
  outPort : PortMask
  outDrive : PortMask
  deriving DecidableEq, Repr

def State.observe (s : State) : Observation := { rsp := s.rsp, outPort := s.outPort, outDrive := s.outDrive }

/-- Nothing is pending and nothing is offered any more: where a run of the model ends (70_reset_and_hazards.md R182). -/
def State.quiet (s : State) : Bool :=
  !s.decPhase && !s.tmr.flag && !s.edgeFlag && !s.edgePhase && s.offers.isEmpty && s.cycle.isEmpty

/-- `TICK_IN` and `TICK_OUT` keep ticking (60_exceptions.md R160). -/
abbrev State.KeepsTicking (s : State) : Prop := ∀ o ∈ ticking, o ∈ s.cycle

/-- An offer the block cannot act on in this state: an instruction R146 does not enable, or an illegal command word
while the task is not ready (log 17). -/
abbrev State.Waits (s : State) (o : Offer) : Prop :=
  (∃ i, decode o = .ok i ∧ enabled i s = false) ∨
    (∃ w, o = .command w ∧ (¬ ∃ i, decode o = .ok i) ∧ (s.decPhase = true ∨ s.edgePhase = true))

/-- Offers that are commands, legal or not, or events: what an agent can offer (30_encoding.md R73, R83). -/
abbrev OffersOfAgents (os : List Offer) : Prop := ∀ o ∈ os, ∀ c, decode o ≠ .error (.notAnEvent c)

/-- The times after the period boundary at which a sequence of steps starting at time `t` toggles a pin: step k acts at
the sum of the ticks before it (43_schedule_builder.md R113). -/
def toggleTimes (pin : PortMask) : Nat → List PulseStep → List Nat
  | _, [] => []
  | t, st :: rest =>
    (if st.mask &&& pin = 0 then [] else [t]) ++ toggleTimes pin (t + st.ticks.toNat) rest

/-- `T_start` of the `j`-th dealt channel: the pulses of the channels before it in its lane (44_servo_output.md R134). -/
def startTime (cfg : Config) (srv : List Servo) (j : Nat) : Nat :=
  (((dealtChannels cfg srv).zipIdx.filter (fun x => x.2 % cfg.kLanes == j % cfg.kLanes && decide (x.2 < j))).map
    (fun x => pulseWidth srv x.1)).sum

/-- The total of the ticks of a sequence of steps. -/
def totalTicks (steps : List PulseStep) : Nat := (steps.map (fun st => st.ticks.toNat)).sum

end Sys2Proof.Machine
end

