-- ==== Sys2Proof/Certificates/Slice0/Obligations.lean ====
section
/-! DEFINITION. The statements for the provers. Each docstring names the rule or section of spec/ it rests on; "D<n>"
is the spec's own decision in 92_eei_decisions.md, "log <n>" this model's in notes/assumptions. A result is given as
the whole next state, so that it is the frame as well. -/

open Sys2Proof Sys2Proof.Machine

/-! ## Encoding -/

/-- Words of 95_test_vectors.md X1 to X11, of eight commands, written out from R74 to R76 (D25, D26), and
two event codes (D27). -/
def Obligations.SampleWordsDecode : Prop :=
  decode (.command 0x10000000#32) = .ok (.tbNow .input) ∧
  decode (.command 0x10400000#32) = .ok (.tbNow .output) ∧
  decode (.command 0x2000FFFA#32) = .ok (.tbElapsed .input 0xFFFA#16) ∧
  decode (.command 0x30000000#32) = .ok .ppmPre ∧
  decode (.command 0x42800000#32) = .ok (.ppmGet 5#5) ∧
  decode (.command 0x504003E8#32) = .ok (.ppmSet 0#5 1000#16 true) ∧
  decode (.command 0x90C005DC#32) = .ok (.srvSet 1#5 1500#16 true) ∧
  decode (.command 0x9FC003E8#32) = .ok (.srvSet 31#5 1000#16 true) ∧
  decode (.command 0xA0000000#32) = .ok .srvPost ∧
  decode (.command 0xB0C00000#32) = .ok (.cfgEnable 1#5 true) ∧
  decode (.event 0x03#8 0x3) = .ok (.evPin 0x3) ∧
  decode (.event 0x06#8 0) = .ok .evTimerIsr

/-- Every instruction, well-formed ones among them, is what its encoding decodes to (R74 to R76, R83; D25 to D27). -/
def Obligations.DecodeOfEncodeIsTheInstruction : Prop :=
  ∀ i : Instr, decode (encode i) = .ok i

/-- A command word that decodes is the encoding of what it decodes to: no two words mean one command (R76; D26). -/
def Obligations.EncodeOfDecodeIsTheWord : Prop :=
  ∀ (w : Word32) (i : Instr), decode (.command w) = .ok i → encode i = .command w

/-- The legal words by their fields: the field constraints of R76, `RSV = 0` in every legal word (D26). Every other
word is illegal (R81). -/
def Obligations.LegalWordsAreThoseOfTheFieldTable : Prop :=
  ∀ w : Word32, (∃ i, decode (.command w) = .ok i) ↔
    w.extractLsb' 16 6 = 0#6 ∧
    ((w.extractLsb' 28 4 = 1#4 ∧ w.extractLsb' 23 5 = 0#5 ∧ w.extractLsb' 0 16 = 0#16) ∨
     (w.extractLsb' 28 4 = 2#4 ∧ w.extractLsb' 23 5 = 0#5) ∨
     ((w.extractLsb' 28 4 = 3#4 ∨ w.extractLsb' 28 4 = 6#4 ∨ w.extractLsb' 28 4 = 7#4 ∨ w.extractLsb' 28 4 = 10#4) ∧
        w.extractLsb' 23 5 = 0#5 ∧ w.getLsbD 22 = false ∧ w.extractLsb' 0 16 = 0#16) ∨
     ((w.extractLsb' 28 4 = 4#4 ∨ w.extractLsb' 28 4 = 8#4) ∧ w.getLsbD 22 = false ∧ w.extractLsb' 0 16 = 0#16) ∨
     (w.extractLsb' 28 4 = 5#4 ∨ w.extractLsb' 28 4 = 9#4) ∨
     (w.extractLsb' 28 4 = 11#4 ∧ w.extractLsb' 0 16 = 0#16))

/-- The event codes are 0x01 to 0x09, each its own event; every other code is no event (R83; D27). That the payload of an
event other than `EV_PIN` is not looked at is the model's choice (log 16). -/
def Obligations.EventCodesAreOneToNine : Prop :=
  ∀ p : PortMask,
    [1#8, 2#8, 3#8, 4#8, 5#8, 6#8, 7#8, 8#8, 9#8].map (fun c => decode (.event c p)) =
      [.evTickIn, .evTickOut, .evPin p, .evEdgeIsr, .evEdgeIsrClr, .evTimerIsr, .evDecodeOne, .evDecodeEnd,
        .evReset].map Except.ok ∧
    ∀ c : EventCode, c.toNat = 0 ∨ 9 < c.toNat → decode (.event c p) = .error (.notAnEvent c)

/-- The fields of a result word (R82; D25). -/
def Obligations.ResultWordFields : Prop :=
  ∀ (ok ill act : Bool) (val : Tick),
    (resultWord ok ill act val).getLsbD 31 = ok ∧
    (resultWord ok ill act val).getLsbD 30 = ill ∧
    (resultWord ok ill act val).extractLsb' 17 13 = 0#13 ∧
    (resultWord ok ill act val).getLsbD 16 = act ∧
    (resultWord ok ill act val).extractLsb' 0 16 = val

/-- A word on a byte-wide path is its four bytes, byte 0 carrying bits 7:0, and reads back whole (20_memory.md R58;
D28). -/
def Obligations.SerialisedWordIsLittleEndian : Prop :=
  ∀ w : Word32, (bytesOfWord w)[0]? = some (w.extractLsb' 0 8) ∧ (bytesOfWord w)[3]? = some (w.extractLsb' 24 8) ∧
    (bytesOfWord w).length = 4 ∧ wordOfBytes (bytesOfWord w) = some w

/-- Lines of R85 and R86 assemble to the commands and pseudo-instructions they name (D36). -/
def Obligations.SampleLinesAssemble : Prop :=
  assembleLine "SRV_SET 1, 1500, 1" = some [.one (.srvSet 1#5 1500#16 true)] ∧
  assembleLine "TB_ELAPSED in, 0xFFFA ; delta" = some [.one (.tbElapsed .input 0xFFFA#16)] ∧
  assembleLine "CFG_ENABLE 0, 1" = some [.one (.cfgEnable 0#5 true)] ∧
  assembleLine "@TICK_OUT 500" = some [.tickOut 500] ∧
  assembleLine "PPM_GET 32" = none

/-! ## Steps -/

/-- A step runs the oldest offer when it decodes to an enabled instruction: it is `exec` of that instruction in the state
without the offer (R146; log 3). -/
def Obligations.StepRunsTheDecodedOffer : Prop :=
  ∀ (s : State) (o : Offer) (rest : List Offer) (i : Instr),
    s.offers = o :: rest → decode o = .ok i → enabled i s = true →
    step s = exec i { s with offers := rest }

/-- An illegal command word changes nothing but `RSP`, which becomes 0x40000000 (R81; D26; log 17). -/
def Obligations.StepOnAnIllegalWordWritesOnlyRsp : Prop :=
  ∀ (s : State) (w : Word32) (rest : List Offer),
    s.offers = .command w :: rest → (¬ ∃ i, decode (.command w) = .ok i) → s.decPhase = false → s.edgePhase = false →
    step s = .next { s with offers := rest, rsp := 0x40000000#32 }

/-- An offer that is not enabled waits, an illegal command word like a command (log 17): the first enabled one is taken,
the others keep their order (the model's choice, log 3 and 4; R146 and R147 fix no order). -/
def Obligations.StepTakesTheFirstEnabledOffer : Prop :=
  ∀ (s : State) (pre post : List Offer) (o : Offer) (i : Instr),
    s.offers = pre ++ o :: post → (∀ p ∈ pre, s.Waits p) →
    decode o = .ok i → enabled i s = true →
    step s = exec i { s with offers := pre ++ post }

/-- With no enabled offer, an illegal command word waiting like a command (log 17), the block takes its own pending step,
timer handler before edge handler before drain (R145); with no handler pending the environment's next offers come (the
model's choice, log 5, 6 and 33). -/
def Obligations.StepServesPendingWorkByPriority : Prop :=
  ∀ s : State, (∀ p ∈ s.offers, s.Waits p) →
    (s.tmr.flag = true → step s = exec .evTimerIsr s) ∧
    (s.tmr.flag = false → s.edgePhase = true → step s = exec .evEdgeIsrClr s) ∧
    (s.tmr.flag = false → s.edgePhase = false → s.edgeFlag = true → step s = exec .evEdgeIsr s) ∧
    (s.tmr.flag = false → s.edgePhase = false → s.edgeFlag = false → s.decPhase = true → s.ring.rd ≠ s.ring.wr →
      step s = exec .evDecodeOne { s with offers := s.offers ++ s.cycle }) ∧
    (s.tmr.flag = false → s.edgePhase = false → s.edgeFlag = false → s.decPhase = true → s.ring.rd = s.ring.wr →
      step s = exec .evDecodeEnd { s with offers := s.offers ++ s.cycle }) ∧
    (s.tmr.flag = false → s.edgePhase = false → s.edgeFlag = false → s.decPhase = false →
      step s = .next { s with offers := s.offers ++ s.cycle })

/-- "no step of the block ever stops it" (60_exceptions.md R137): with an admitted configuration and offers that are
commands, legal or not, or events, every step answers a next state. -/
def Obligations.NoStepEverStops : Prop :=
  ∀ s : State, Admitted s.cfg → OffersOfAgents s.offers → ∃ t, step s = .next t

/-- Which steps are enabled, row by row of 60_exceptions.md R146 (D31, D32; the host's offering a command is `step`'s
part), and that a step not enabled is no move: nothing happens (93_implementation_defined.md U23; the model's choice,
log 4). -/
def Obligations.DisabledStepsChangeNothing : Prop :=
  (∀ (i : Instr) (s : State), enabled i s = false → exec i s = .next s) ∧
  ∀ s : State,
    (∀ i w, encode i = .command w → (enabled i s = true ↔ s.decPhase = false ∧ s.edgePhase = false)) ∧
    enabled .evTickIn s = true ∧ enabled .evTickOut s = true ∧ (∀ p, enabled (.evPin p) s = true) ∧
    (enabled .evTimerIsr s = true ↔ s.tmr.flag = true) ∧
    (enabled .evEdgeIsr s = true ↔ s.edgeFlag = true ∧ s.edgePhase = false) ∧
    (enabled .evEdgeIsrClr s = true ↔ s.edgePhase = true) ∧
    (enabled .evDecodeOne s = true ↔ s.decPhase = true ∧ s.ring.rd ≠ s.ring.wr ∧ s.edgePhase = false) ∧
    (enabled .evDecodeEnd s = true ↔ s.decPhase = true ∧ s.ring.rd = s.ring.wr ∧ s.edgePhase = false) ∧
    enabled .evReset s = true

/-! ## TimeBase -/

/-- `TB_NOW` (40_timebase.md R90): its row, its result and its frame. -/
def Obligations.TbNowReadsTheSelectedCounter : Prop :=
  (∀ w : Word32, w &&& 0xFFBFFFFF#32 = 0x10000000#32 →
    decode (.command w) = .ok (.tbNow (if w.getLsbD 22 then .output else .input))) ∧
  ∀ (s : State) (sel : CounterSel), s.decPhase = false → s.edgePhase = false →
    exec (.tbNow sel) s = .next { s with
      rsp := 0x80000000#32 ||| (match sel with | .input => s.tbIn | .output => s.tmr.cnt).setWidth 32 }

/-- `TB_ELAPSED` (40_timebase.md R91): `(now - since) mod 2^16`. -/
def Obligations.TbElapsedIsTheWraparoundDelta : Prop :=
  (∀ w : Word32, w &&& 0xFFBF0000#32 = 0x20000000#32 →
    decode (.command w) = .ok (.tbElapsed (if w.getLsbD 22 then .output else .input) (w.extractLsb' 0 16))) ∧
  ∀ (s : State) (sel : CounterSel) (since : Tick), s.decPhase = false → s.edgePhase = false →
    exec (.tbElapsed sel since) s = .next { s with
      rsp := 0x80000000#32 |||
        BitVec.ofNat 32 (((match sel with | .input => s.tbIn | .output => s.tmr.cnt).toNat + 65536 - since.toNat)
          % 65536) }

/-- `EV_TICK_IN` (40_timebase.md R88), always enabled. -/
def Obligations.TickInIncrementsTheInputCounter : Prop :=
  decode (.event 0x01#8 0) = .ok .evTickIn ∧
  ∀ s : State, enabled .evTickIn s = true ∧
    exec .evTickIn s = .next { s with tbIn := BitVec.ofNat 16 ((s.tbIn.toNat + 1) % 65536) }

/-- `EV_TICK_OUT` (40_timebase.md R89; D18): the counter and the compare match, which only sets `TMR_FLAG`. -/
def Obligations.TickOutCountsAndMatches : Prop :=
  ∀ s : State, exec .evTickOut s = .next { s with
    tmr := { cnt := s.tmr.cnt + 1#16, cmp := s.tmr.cmp, stepIdx := s.tmr.stepIdx
             flag := if s.tmr.cnt + 1#16 = s.tmr.cmp then true else s.tmr.flag } }

/-- The wraparound law (40_timebase.md R92, derived there): after `d` input ticks the delta to the old reading is
`d mod 2^16`. -/
def Obligations.ElapsedCountsTicksModulo65536 : Prop :=
  ∀ (s : State) (d : Nat), s.decPhase = false → s.edgePhase = false →
    ∃ t u, runInstrs (List.replicate d .evTickIn) s = .next t ∧ exec (.tbElapsed .input s.tbIn) t = .next u ∧
      (u.rsp.extractLsb' 0 16).toNat = d % 65536

/-- After a restart with compare value `d`, the match comes on the `d`-th output tick and on none before (40_timebase.md
R89, corner cases; D18). -/
def Obligations.CompareMatchesOnExactlyTheDthTick : Prop :=
  ∀ (s : State) (d : Nat), s.tmr.cnt = 0#16 → s.tmr.flag = false → s.tmr.cmp.toNat = d → 1 ≤ d →
    (∀ n < d, ∃ t, runInstrs (List.replicate n .evTickOut) s = .next t ∧ t.tmr.flag = false) ∧
    ∃ t, runInstrs (List.replicate d .evTickOut) s = .next t ∧ t.tmr.flag = true ∧ t.tmr.cnt = s.tmr.cmp

/-! ## Edge capture -/

/-- `EV_PIN` (41_edge_capture.md R94), always enabled: a change of the monitored bit sets `EDGE_FLAG`. -/
def Obligations.PinSetsTheEdgeFlagOnAMonitoredChange : Prop :=
  ∀ (s : State) (p : PortMask), decode (.event 0x03#8 p) = .ok (.evPin p) ∧ enabled (.evPin p) s = true ∧
    (Instr.wf s.cfg.portW (.evPin p) = true →
      exec (.evPin p) s = .next { s with
        inPort := p
        edgeFlag := if s.inPort &&& s.cfg.ppmMask ≠ p &&& s.cfg.ppmMask then true else s.edgeFlag })

/-- `EV_EDGE_ISR` (41_edge_capture.md R95) with `RingPush` (R97): the event is stored, or dropped when the ring is full
(D8). -/
def Obligations.EdgeHandlerPushesOrDrops : Prop :=
  ∀ s : State, s.edgeFlag = true → s.edgePhase = false →
    ((s.ring.wr + 1) % s.cfg.ringCap = s.ring.rd → exec .evEdgeIsr s = .next { s with edgePhase := true }) ∧
    ((s.ring.wr + 1) % s.cfg.ringCap ≠ s.ring.rd →
      exec .evEdgeIsr s = .next { s with
        edgePhase := true
        ring := { slots := s.ring.slots.set s.ring.wr { ts := s.tbIn, snap := s.inPort }
                  wr := (s.ring.wr + 1) % s.cfg.ringCap
                  rd := s.ring.rd } })

/-- `EV_EDGE_ISR_CLR` (41_edge_capture.md R96). -/
def Obligations.EdgeHandlerReturnsWithTheFlagClear : Prop :=
  decode (.event 0x05#8 0) = .ok .evEdgeIsrClr ∧
  ∀ s : State, (enabled .evEdgeIsrClr s = true ↔ s.edgePhase = true) ∧
    (s.edgePhase = true → exec .evEdgeIsrClr s = .next { s with edgeFlag := false, edgePhase := false })

/-- A monitored change between the handler's two steps gives no event: after the handler's return the ring is as the push
left it and no handler step is enabled (41_edge_capture.md R101(b), derived there). -/
def Obligations.EdgeBetweenPushAndClearIsLost : Prop :=
  ∀ (s : State) (p : PortMask), s.edgeFlag = true → s.edgePhase = false → p < 2 ^ s.cfg.portW →
    ∃ t u, exec .evEdgeIsr s = .next t ∧ runInstrs [.evPin p, .evEdgeIsrClr] t = .next u ∧
      u.ring = t.ring ∧ u.edgeFlag = false ∧ u.edgePhase = false ∧ u.inPort = p ∧
      enabled .evEdgeIsr u = false ∧ enabled .evEdgeIsrClr u = false

/-- The ring is a queue (20_memory.md R67): a push appends while fewer than RING_CAP - 1 events are held and is dropped
otherwise (D8), a pop takes the oldest, and the ring is empty iff its indices are equal. -/
def Obligations.RingIsAFirstInFirstOutQueue : Prop :=
  ∀ s : State, s.ring.Fits s.cfg →
    (s.ring.events s.cfg.ringCap = [] ↔ s.ring.rd = s.ring.wr) ∧
    (s.edgeFlag = true → s.edgePhase = false →
      ∃ t, exec .evEdgeIsr s = .next t ∧
        t.ring.events s.cfg.ringCap =
          if (s.ring.events s.cfg.ringCap).length < s.cfg.ringCap - 1
          then s.ring.events s.cfg.ringCap ++ [{ ts := s.tbIn, snap := s.inPort }]
          else s.ring.events s.cfg.ringCap) ∧
    (s.decPhase = true → s.edgePhase = false → ∀ ev rest, s.ring.events s.cfg.ringCap = ev :: rest →
      ∃ t, exec .evDecodeOne s = .next t ∧ t.ring.events s.cfg.ringCap = rest ∧ t.ppm = s.ppm.decodeEvent s.cfg ev)

/-! ## PPM decoder -/

/-- `PPM_PRE` is the one word 0x30000000, may run iff no drain and no edge handler is under way, starts the drain and
answers OK (42_ppm_decoder.md R104; D31). -/
def Obligations.PpmPreStartsTheDrain : Prop :=
  (∀ w : Word32, decode (.command w) = .ok .ppmPre ↔ w = 0x30000000#32) ∧
  ∀ s : State, (enabled .ppmPre s = true ↔ s.decPhase = false ∧ s.edgePhase = false) ∧
    (s.decPhase = false → s.edgePhase = false →
      exec .ppmPre s = .next { s with decPhase := true, rsp := 0x80000000#32 })

/-- `EV_DECODE_ONE` (42_ppm_decoder.md R105 to R107; D10, D11): a non-transition, a rising edge, a sync gap, a stored
pulse, a pulse beyond the frame; the read index advances in each. -/
def Obligations.DecodeOneDecodesTheOldestEvent : Prop :=
  ∀ (s : State) (ev : EdgeEvent), s.decPhase = true → s.edgePhase = false → s.ring.rd ≠ s.ring.wr →
    s.ring.slots[s.ring.rd]? = some ev →
    let popped : State := { s with ring := { s.ring with rd := (s.ring.rd + 1) % s.cfg.ringCap } }
    let high : Prop := ev.snap &&& s.cfg.ppmMask ≠ 0
    let pulse : Tick := ev.ts - s.ppm.lastToggleTime
    ((high ↔ s.ppm.prevLevel = true) → exec .evDecodeOne s = .next popped) ∧
    (high → s.ppm.prevLevel = false →
      exec .evDecodeOne s = .next { popped with ppm := { s.ppm with prevLevel := true } }) ∧
    (¬ high → s.ppm.prevLevel = true → s.cfg.frameSyncThreshold < pulse.toNat →
      exec .evDecodeOne s = .next { popped with
        ppm := { s.ppm with index := 0, prevLevel := false, lastToggleTime := ev.ts } }) ∧
    (¬ high → s.ppm.prevLevel = true → pulse.toNat ≤ s.cfg.frameSyncThreshold → s.ppm.index < s.cfg.nPpm →
      exec .evDecodeOne s = .next { popped with
        ppm := { pulseTick := s.ppm.pulseTick.set s.ppm.index pulse
                 index := s.ppm.index + 1
                 prevLevel := false
                 lastToggleTime := ev.ts
                 active := true } }) ∧
    (¬ high → s.ppm.prevLevel = true → pulse.toNat ≤ s.cfg.frameSyncThreshold → s.cfg.nPpm ≤ s.ppm.index →
      exec .evDecodeOne s = .next { popped with
        ppm := { s.ppm with prevLevel := false, lastToggleTime := ev.ts, active := true } })

/-- `EV_DECODE_END` (42_ppm_decoder.md R108): the watchdog clears `active`, never sets it, and the drain ends. -/
def Obligations.DecodeEndRunsTheWatchdog : Prop :=
  decode (.event 0x08#8 0) = .ok .evDecodeEnd ∧
  ∀ s : State,
    (enabled .evDecodeEnd s = true ↔ s.decPhase = true ∧ s.ring.rd = s.ring.wr ∧ s.edgePhase = false) ∧
    (s.decPhase = true → s.ring.rd = s.ring.wr → s.edgePhase = false →
      exec .evDecodeEnd s = .next { s with
        decPhase := false
        ppm := { s.ppm with
          active := if (s.tbIn - s.ppm.lastToggleTime).toNat > s.cfg.inactivityTimeout then false
                    else s.ppm.active } })

/-- `PPM_GET` (42_ppm_decoder.md R110; D22): the stored width and the one input flag, or nothing out of range. -/
def Obligations.PpmGetReadsOneChannel : Prop :=
  ∀ (s : State) (ch : Channel), s.decPhase = false → s.edgePhase = false →
    (∀ v, ch.toNat < s.cfg.nPpm → s.ppm.pulseTick[ch.toNat]? = some v →
      exec (.ppmGet ch) s = .next { s with
        rsp := 0x80000000#32 ||| (if s.ppm.active then 0x00010000#32 else 0#32) ||| v.setWidth 32 }) ∧
    (s.cfg.nPpm ≤ ch.toNat → exec (.ppmGet ch) s = .next { s with rsp := 0#32 })

/-- The hooks with no effect: `PPM_SET` answers OK = 0, `PPM_POST` and `SRV_PRE` answer OK = 1 (42_ppm_decoder.md R111,
R112; 44_servo_output.md R126; D23). -/
def Obligations.EmptyHooksWriteOnlyRsp : Prop :=
  ∀ (s : State) (ch : Channel) (v : Tick) (a : Bool), s.decPhase = false → s.edgePhase = false →
    exec (.ppmSet ch v a) s = .next { s with rsp := 0#32 } ∧
    exec .ppmPost s = .next { s with rsp := 0x80000000#32 } ∧
    exec .srvPre s = .next { s with rsp := 0x80000000#32 }

/-- The activity law (42_ppm_decoder.md R109, derived there): only a channel pulse sets `active`, only an expired
watchdog clears it, reset apart. -/
def Obligations.OnlyAChannelPulseSetsActive : Prop :=
  ∀ (i : Instr) (s t : State), i ≠ .evReset → exec i s = .next t → t.ppm.active ≠ s.ppm.active →
    (t.ppm.active = true →
      i = .evDecodeOne ∧ s.ppm.prevLevel = true ∧ (s.ring.slot s.ring.rd).snap &&& s.cfg.ppmMask = 0 ∧
        ((s.ring.slot s.ring.rd).ts - s.ppm.lastToggleTime).toNat ≤ s.cfg.frameSyncThreshold) ∧
    (t.ppm.active = false →
      i = .evDecodeEnd ∧ (s.tbIn - s.ppm.lastToggleTime).toNat > s.cfg.inactivityTimeout)

/-- Bits of a snapshot other than the monitored one are never interpreted (10_state.md R23): two states whose events
differ only in them decode alike. -/
def Obligations.UnmonitoredPinsNeverReachTheDecoder : Prop :=
  ∀ (s : State) (slots : List EdgeEvent) (t u : State),
    slots.map (fun ev => (ev.ts, ev.snap &&& s.cfg.ppmMask)) =
      s.ring.slots.map (fun ev => (ev.ts, ev.snap &&& s.cfg.ppmMask)) →
    exec .evDecodeOne s = .next t → exec .evDecodeOne { s with ring := { s.ring with slots := slots } } = .next u →
    u = { t with ring := { t.ring with slots := slots } }

/-- A drain with no edge coming in ends (42_ppm_decoder.md R104, R105, R108): with nothing offered, after one step for
each event held and one for the end; with anything offered, now and again and again, but a pin change, some time
(60_exceptions.md R160). A drain whose ring is refilled as fast as it is emptied never ends, in a run whose ticks go on
(70_reset_and_hazards.md R181). The block serves its own pending steps (the model's choice, log 5 and 33). -/
def Obligations.DrainEndsWhenNoEdgesArrive : Prop :=
  (∀ s : State, s.ring.Fits s.cfg → s.decPhase = true → s.edgePhase = false → s.edgeFlag = false → s.tmr.flag = false →
    s.offers = [] → s.cycle = [] →
    ∃ t, Host.Core.run Sys2Proof.core (s.ring.count s.cfg.ringCap + 1) s = .next t ∧
      t.quiet = true ∧ t.ring.rd = s.ring.wr ∧ t.ring.wr = s.ring.wr) ∧
  (∀ s : State, Admitted s.cfg → s.ring.Fits s.cfg → s.decPhase = true → OffersOfAgents (s.offers ++ s.cycle) →
    (∀ o ∈ s.offers ++ s.cycle, ∀ p, decode o ≠ .ok (.evPin p)) →
    ∃ k t, Host.Core.run Sys2Proof.core k s = .next t ∧ t.decPhase = false) ∧
  ∃ s : State, s.Inv ∧ s.OutInv ∧ s.KeepsTicking ∧
    ∀ n, ∃ t, Host.Core.run Sys2Proof.core n s = .next t ∧ t.decPhase = true

/-! ## Servo configuration -/

/-- `SRV_SET` (44_servo_output.md R123): clamp and store in range, a no-op with OK = 0 out of range. The premise on the
array is a clause of `State.Inv`. -/
def Obligations.SrvSetClampsAndStores : Prop :=
  (∀ w : Word32, w &&& 0xF03F0000#32 = 0x90000000#32 →
    decode (.command w) = .ok (.srvSet (w.extractLsb' 23 5) (w.extractLsb' 0 16) (w.getLsbD 22))) ∧
  ∀ (s : State) (ch : Channel) (v : Tick) (a : Bool), s.srv.length = s.cfg.nServo →
    s.decPhase = false → s.edgePhase = false →
    (ch.toNat < s.cfg.nServo → ∃ x t, s.srv[ch.toNat]? = some x ∧ exec (.srvSet ch v a) s = .next t ∧
      t = { s with srv := t.srv, rsp := 0x80000000#32 } ∧ t.srv.length = s.srv.length ∧
      t.srv[ch.toNat]? = some { enabled := x.enabled, active := a
                                timerValue := BitVec.ofNat 16 (min (max v.toNat s.cfg.minPulse) s.cfg.maxPulse) } ∧
      ∀ c, c ≠ ch.toNat → t.srv[c]? = s.srv[c]?) ∧
    (s.cfg.nServo ≤ ch.toNat → exec (.srvSet ch v a) s = .next { s with rsp := 0#32 })

/-- `SRV_GET` (44_servo_output.md R124; D22). -/
def Obligations.SrvGetReadsOneChannel : Prop :=
  ∀ (s : State) (ch : Channel), s.decPhase = false → s.edgePhase = false →
    (∀ x, ch.toNat < s.cfg.nServo → s.srv[ch.toNat]? = some x →
      exec (.srvGet ch) s = .next { s with
        rsp := 0x80000000#32 ||| (if x.active then 0x00010000#32 else 0#32) ||| x.timerValue.setWidth 32 }) ∧
    (s.cfg.nServo ≤ ch.toNat → exec (.srvGet ch) s = .next { s with rsp := 0#32 })

/-- `CFG_ENABLE` (44_servo_output.md R125; D24). The premise on the array is a clause of `State.Inv`. -/
def Obligations.CfgEnableWritesOneFlag : Prop :=
  ∀ (s : State) (ch : Channel) (en : Bool), s.srv.length = s.cfg.nServo → s.decPhase = false → s.edgePhase = false →
    (ch.toNat < s.cfg.nServo → ∃ x t, s.srv[ch.toNat]? = some x ∧ exec (.cfgEnable ch en) s = .next t ∧
      t = { s with srv := t.srv, rsp := 0x80000000#32 } ∧ t.srv.length = s.srv.length ∧
      t.srv[ch.toNat]? = some { x with enabled := en } ∧
      ∀ c, c ≠ ch.toNat → t.srv[c]? = s.srv[c]?) ∧
    (s.cfg.nServo ≤ ch.toNat → exec (.cfgEnable ch en) s = .next { s with rsp := 0#32 })

/-- The four read commands write only `RSP`, and repeating one changes nothing (20_memory.md R63). -/
def Obligations.ReadCommandsAreRepeatable : Prop :=
  ∀ (i : Instr) (s t : State),
    (∃ sel, i = .tbNow sel) ∨ (∃ sel since, i = .tbElapsed sel since) ∨ (∃ ch, i = .ppmGet ch) ∨
      (∃ ch, i = .srvGet ch) →
    exec i s = .next t → t = { s with rsp := t.rsp } ∧ exec i t = .next t

/-! ## Schedule builder -/

/-- The range law (43_schedule_builder.md R120, derived there): the number of steps, the range of their ticks, their
sum, and the pins they toggle. -/
def Obligations.BuiltScheduleFillsTheRefreshPeriod : Prop :=
  ∀ (cfg : Config) (srv : List Servo), Admitted cfg → srv.length = cfg.nServo → (∀ x ∈ srv, x.InBounds cfg) →
    1 ≤ (scheduleSteps cfg srv).length ∧
    (scheduleSteps cfg srv).length ≤ (dealtChannels cfg srv).length + 1 ∧
    (dealtChannels cfg srv).length + 1 ≤ cfg.maxSteps ∧
    (∀ st ∈ scheduleSteps cfg srv, 1 ≤ st.ticks.toNat) ∧
    totalTicks (scheduleSteps cfg srv) = cfg.refreshPeriod ∧
    ∀ st ∈ scheduleSteps cfg srv,
      st.mask &&& orMasks ((dealtChannels cfg srv).map cfg.pinMask) = st.mask

/-- The pulse law (43_schedule_builder.md R121, derived there): a dealt channel's pin is toggled exactly twice, first
when its lane reaches it and then `timer_value` ticks later; a channel not dealt is never toggled. -/
def Obligations.EachDealtChannelPulsesForItsWidth : Prop :=
  ∀ (cfg : Config) (srv : List Servo), Admitted cfg → srv.length = cfg.nServo → (∀ x ∈ srv, x.InBounds cfg) →
    (∀ j c, (dealtChannels cfg srv)[j]? = some c →
      toggleTimes (cfg.pinMask c) 0 (scheduleSteps cfg srv) =
        [startTime cfg srv j, startTime cfg srv j + pulseWidth srv c]) ∧
    ∀ c < cfg.nServo, c ∉ dealtChannels cfg srv → toggleTimes (cfg.pinMask c) 0 (scheduleSteps cfg srv) = []

/-- The drive mask (43_schedule_builder.md R119; D16): a servo pin is driven iff its channel is enabled, active or
not. -/
def Obligations.DriveMaskHoldsTheEnabledPins : Prop :=
  ∀ (cfg : Config) (srv : List Servo) (c : Nat), Admitted cfg → c < cfg.nServo →
    (scheduleDrive cfg srv &&& cfg.pinMask c ≠ 0 ↔ (servoAt srv c).enabled = true)

/-- Successful publishes from one unchanged configuration build the same schedule, whatever else the two states hold
(43_schedule_builder.md R121). -/
def Obligations.PublishDependsOnlyOnTheConfiguration : Prop :=
  ∀ s s' t t' : State, s.cfg = s'.cfg → s.srv = s'.srv → s.sched.nextPending = false → s'.sched.nextPending = false →
    taskReady s = true → taskReady s' = true → exec .srvPost s = .next t → exec .srvPost s' = .next t' →
    t.sched.standby.len = t'.sched.standby.len ∧ t.sched.standby.drive = t'.sched.standby.drive ∧
    t.sched.standby.steps.take t.sched.standby.len = t'.sched.standby.steps.take t'.sched.standby.len

/-! ## Double buffer and engine -/

/-- `SRV_POST` (44_servo_output.md R127): failure leaves all but `RSP`; success loads the standby buffer, keeps its steps
past `len`, and publishes it. -/
def Obligations.SrvPostPublishesOrFails : Prop :=
  decode (.command 0xA0000000#32) = .ok .srvPost ∧
  ∀ s : State, s.decPhase = false → s.edgePhase = false →
    (s.sched.nextPending = true → exec .srvPost s = .next { s with rsp := 0#32 }) ∧
    (s.sched.nextPending = false → ∃ t, exec .srvPost s = .next t ∧
      t = { s with sched := t.sched, rsp := 0x80000000#32 } ∧
      t.sched.nextPending = true ∧ t.sched.cur = s.sched.cur ∧ t.sched.current = s.sched.current ∧
      t.sched.standby.len = (scheduleSteps s.cfg s.srv).length ∧
      t.sched.standby.steps.take t.sched.standby.len = scheduleSteps s.cfg s.srv ∧
      t.sched.standby.steps.drop t.sched.standby.len = s.sched.standby.steps.drop t.sched.standby.len ∧
      t.sched.standby.drive = scheduleDrive s.cfg s.srv)

/-- `EV_TIMER_ISR` (44_servo_output.md R129 to R132; D15, D16, D18, D19): a firing inside a schedule, at its last step
with nothing published, and at its last step with a published schedule. -/
def Obligations.TimerHandlerFiresOneStep : Prop :=
  ∀ (s : State) (st : PulseStep), s.tmr.flag = true → s.sched.current.steps[s.tmr.stepIdx]? = some st →
    (s.tmr.stepIdx + 1 ≠ s.sched.current.len →
      exec .evTimerIsr s = .next { s with
        tmr := { cnt := 0#16, cmp := st.ticks, flag := false, stepIdx := s.tmr.stepIdx + 1 }
        outPort := s.outPort ^^^ st.mask }) ∧
    (s.tmr.stepIdx + 1 = s.sched.current.len → s.sched.nextPending = false →
      exec .evTimerIsr s = .next { s with
        tmr := { cnt := 0#16, cmp := st.ticks, flag := false, stepIdx := 0 }
        outPort := s.outPort ^^^ st.mask }) ∧
    (s.tmr.stepIdx + 1 = s.sched.current.len → s.sched.nextPending = true →
      exec .evTimerIsr s = .next { s with
        tmr := { cnt := 0#16, cmp := st.ticks, flag := false, stepIdx := 0 }
        outPort := s.outPort ^^^ st.mask
        outDrive := s.sched.standby.drive
        sched := { s.sched with cur := !s.sched.cur, nextPending := false } })

/-- A live pulse is never altered (20_memory.md R71; 44_servo_output.md R128, R130, derived there): reset apart, no step
writes the current buffer or a published one, and the buffers change places only at the last step's firing. -/
def Obligations.CurrentScheduleIsNeverAltered : Prop :=
  ∀ (i : Instr) (s t : State), i ≠ .evReset → exec i s = .next t →
    t.sched.buffer s.sched.cur = s.sched.current ∧
    (s.sched.nextPending = true → t.sched.buffer (!s.sched.cur) = s.sched.standby) ∧
    (t.sched.cur ≠ s.sched.cur →
      i = .evTimerIsr ∧ s.tmr.flag = true ∧ s.sched.nextPending = true ∧ s.tmr.stepIdx + 1 = s.sched.current.len ∧
        t.tmr.stepIdx = 0 ∧ t.sched.nextPending = false ∧ t.outDrive = s.sched.standby.drive)

/-- The disable law (44_servo_output.md R136, derived there): after `CFG_ENABLE c, 0` and a successful `SRV_POST` the
published schedule neither toggles nor drives the channel's pin, and the pins are as they were. -/
def Obligations.DisabledChannelLeavesThePublishedSchedule : Prop :=
  ∀ (s : State) (ch : Channel), s.Inv → ch.toNat < s.cfg.nServo → s.decPhase = false → s.edgePhase = false →
    s.sched.nextPending = false →
    ∃ t, runInstrs [.cfgEnable ch false, .srvPost] s = .next t ∧ t.sched.nextPending = true ∧
      (∀ st ∈ t.sched.standby.steps.take t.sched.standby.len, st.mask &&& s.cfg.pinMask ch.toNat = 0) ∧
      t.sched.standby.drive &&& s.cfg.pinMask ch.toNat = 0 ∧ t.outPort = s.outPort ∧ t.outDrive = s.outDrive

/-- The waveform law (44_servo_output.md R134, derived there), in runs that serve each firing on the tick its flag is
set (`ticksServiced`, whose firings that are not enabled are skipped, log 4 and 29): `n` output ticks after the firing of step 0 of a built schedule, the pin of channel `c` is 1 iff `c` is dealt and
`n` lies in its pulse. -/
def Obligations.WaveformOfABuiltSchedule : Prop :=
  ∀ (s : State) (srv : List Servo) (c n : Nat), s.Inv → s.OutInv → s.tmr.flag = true → s.tmr.stepIdx = 0 →
    srv.length = s.cfg.nServo → (∀ x ∈ srv, x.InBounds s.cfg) →
    s.sched.current.len = (scheduleSteps s.cfg srv).length →
    s.sched.current.steps.take s.sched.current.len = scheduleSteps s.cfg srv →
    c < s.cfg.nServo → n < s.cfg.refreshPeriod →
    ∃ t, runInstrs (.evTimerIsr :: ticksServiced n) s = .next t ∧
      (t.outPort &&& s.cfg.pinMask c ≠ 0 ↔
        ∃ j, (dealtChannels s.cfg srv)[j]? = some c ∧ startTime s.cfg srv j ≤ n ∧
          n < startTime s.cfg srv j + pulseWidth srv c)

/-- The period law (44_servo_output.md R134, derived there): a schedule whose ticks total REFRESH_PERIOD comes back to
its first step's firing after exactly that many output ticks, with every toggled pin low before it (`ticksServiced`,
whose firings that are not enabled are skipped, log 4 and 29). -/
def Obligations.SchedulePeriodIsTheRefreshPeriod : Prop :=
  ∀ s : State, s.Inv → s.OutInv → s.tmr.flag = true → s.tmr.stepIdx = 0 →
    totalTicks (s.sched.current.steps.take s.sched.current.len) = s.cfg.refreshPeriod →
    ∃ t, runInstrs (.evTimerIsr :: (ticksServiced (s.cfg.refreshPeriod - 1) ++ [.evTickOut])) s = .next t ∧
      t.tmr.flag = true ∧ t.tmr.stepIdx = 0 ∧ t.outPort = 0

/-! ## Reset -/

/-- `EV_RESET` of an admitted configuration (70_reset_and_hazards.md R161, R162; D9, D12, D17, D20, D35): every element
at its reset value, what reset keeps kept. The input counter takes the next draw of the free value, whatever it is (R164;
log 7). -/
def Obligations.ResetLeavesTheTabulatedValues : Prop :=
  ∀ s : State, Admitted s.cfg → ∃ t, exec .evReset s = .next t ∧
    t.outPort = 0 ∧ t.outDrive = 0 ∧ t.rsp = 0#32 ∧
    t.tbIn = Config.freeTick s.draws ∧ t.draws = s.draws + 1 ∧
    t.tmr = { cnt := 0#16, cmp := 1#16, flag := false, stepIdx := 0 } ∧
    t.edgeFlag = false ∧ t.edgePhase = false ∧ t.decPhase = false ∧
    t.ring = { slots := s.ring.slots, wr := 0, rd := 0 } ∧
    t.ppm = { pulseTick := List.replicate s.cfg.nPpm 0#16, index := 0, prevLevel := false, lastToggleTime := 0#16
              active := false } ∧
    t.srv.length = s.cfg.nServo ∧
    (∀ c < s.cfg.nServo, t.srv[c]? = some { enabled := s.cfg.enableInit c, active := false
                                            timerValue := BitVec.ofNat 16 s.cfg.minPulse }) ∧
    t.sched.cur = false ∧ t.sched.nextPending = false ∧ t.sched.buf1 = s.sched.buf1 ∧
    t.sched.buf0.len = 1 ∧ t.sched.buf0.drive = 0 ∧
    t.sched.buf0.steps = { mask := 0, ticks := BitVec.ofNat 16 s.cfg.refreshPeriod } :: s.sched.buf0.steps.drop 1 ∧
    t.cfg = s.cfg ∧ t.inPort = s.inPort ∧ t.offers = s.offers ∧ t.cycle = s.cycle

/-- A configuration that fails a check is refused at reset by the name of a check it fails (60_exceptions.md R140;
D40). -/
def Obligations.ResetRefusesAFailedCheckByName : Prop :=
  ∀ s : State, ¬ Admitted s.cfg →
    ∃ check, exec .evReset s = .refused (.invalidConfig check) ∧ checkHolds s.cfg check = false

/-- The checks of 00_scope.md R6 (D7): what an admitted configuration is. -/
def Obligations.AdmittedIsTheConjunctionOfTheChecks : Prop :=
  ∀ cfg : Config, Admitted cfg ↔
    (2 ≤ cfg.ringCap ∧ ∃ k, cfg.ringCap = 2 ^ k) ∧
    (1 ≤ cfg.portW ∧ ∃ b < cfg.portW, cfg.ppmMask = 2 ^ b) ∧
    ((∀ c < cfg.nServo, ∃ b < cfg.portW, cfg.pinMask c = 2 ^ b) ∧
      ∀ c < cfg.nServo, ∀ d < cfg.nServo, c ≠ d → cfg.pinMask c ≠ cfg.pinMask d) ∧
    (1 ≤ cfg.nServo ∧ cfg.nServo ≤ 24 ∧ 1 ≤ cfg.nPpm ∧ cfg.nPpm ≤ 31 ∧ 1 ≤ cfg.kLanes) ∧
    (1 ≤ cfg.minPulse ∧ cfg.minPulse ≤ cfg.maxPulse ∧ cfg.maxPulse ≤ 65535) ∧
    ((cfg.nServo + cfg.kLanes - 1) / cfg.kLanes * cfg.maxPulse < cfg.refreshPeriod ∧ cfg.refreshPeriod ≤ 65535) ∧
    (cfg.frameSyncThreshold ≤ 65535 ∧ cfg.inactivityTimeout ≤ 65535)

/-- After reset the first output tick makes the idle schedule fire, which toggles nothing and waits a refresh period
(70_reset_and_hazards.md R163, derived there; D17). -/
def Obligations.FirstFiringAfterResetIsIdle : Prop :=
  ∀ (cfg : Config) (tb : Tick) (pins : PortMask),
    ∃ t u, exec .evTickOut (State.initial cfg tb pins) = .next t ∧ t.tmr.flag = true ∧ exec .evTimerIsr t = .next u ∧
      u.outPort = 0 ∧ u.outDrive = 0 ∧ u.sched = (State.initial cfg tb pins).sched ∧
      u.tmr = { cnt := 0#16, cmp := BitVec.ofNat 16 cfg.refreshPeriod, flag := false, stepIdx := 0 }

/-! ## Whole-machine rules -/

/-- The state right after reset meets the invariants of 10_state.md R53, for every admitted configuration, every draw of
the input counter and every level of the input port. -/
def Obligations.InvariantsHoldAfterReset : Prop :=
  ∀ (cfg : Config) (tb : Tick) (pins : PortMask), Admitted cfg → pins < 2 ^ cfg.portW →
    (State.initial cfg tb pins).Inv ∧ (State.initial cfg tb pins).OutInv

/-- Every step keeps the invariants of 10_state.md R53(a) to (d), derived there. -/
def Obligations.EveryStepKeepsTheInvariants : Prop :=
  ∀ s t : State, s.Inv → step s = .next t → t.Inv

/-- Every step keeps the output latch equal to the toggles of the steps fired (10_state.md R53(e), 44_servo_output.md
R134, derived there). -/
def Obligations.EveryStepKeepsTheLatchInvariant : Prop :=
  ∀ s t : State, s.Inv → s.OutInv → step s = .next t → t.OutInv

/-- Immediately after a firing that ends a schedule, the output latch is 0 (10_state.md R53(e), derived there). -/
def Obligations.LatchIsLowAtTheEndOfASchedule : Prop :=
  ∀ s t : State, s.Inv → s.OutInv → s.tmr.flag = true → s.tmr.stepIdx + 1 = s.sched.current.len →
    exec .evTimerIsr s = .next t → t.outPort = 0

/-- No step writes the configuration (10_state.md R52). -/
def Obligations.NoStepWritesTheConfiguration : Prop :=
  ∀ s t : State, step s = .next t → t.cfg = s.cfg

/-- The writers of each element (10_state.md R49), reset apart. -/
def Obligations.EachElementHasItsWriters : Prop :=
  ∀ (i : Instr) (s t : State), i ≠ .evReset → exec i s = .next t →
    (t.inPort ≠ s.inPort → ∃ p, i = .evPin p) ∧
    (t.tbIn ≠ s.tbIn → i = .evTickIn) ∧
    (t.tmr.cnt ≠ s.tmr.cnt → i = .evTickOut ∨ i = .evTimerIsr) ∧
    (t.tmr.flag ≠ s.tmr.flag → (i = .evTickOut ∧ t.tmr.flag = true) ∨ (i = .evTimerIsr ∧ t.tmr.flag = false)) ∧
    (t.edgeFlag ≠ s.edgeFlag →
      ((∃ p, i = .evPin p) ∧ t.edgeFlag = true) ∨ (i = .evEdgeIsrClr ∧ t.edgeFlag = false)) ∧
    (t.tmr.cmp ≠ s.tmr.cmp ∨ t.tmr.stepIdx ≠ s.tmr.stepIdx ∨ t.outPort ≠ s.outPort ∨ t.outDrive ≠ s.outDrive ∨
      t.sched.cur ≠ s.sched.cur → i = .evTimerIsr) ∧
    (t.sched.nextPending ≠ s.sched.nextPending →
      (i = .srvPost ∧ t.sched.nextPending = true) ∨ (i = .evTimerIsr ∧ t.sched.nextPending = false)) ∧
    (t.sched.buffer s.sched.cur = s.sched.current) ∧
    (t.sched.buffer (!s.sched.cur) ≠ s.sched.standby → i = .srvPost) ∧
    (t.ring.slots ≠ s.ring.slots ∨ t.ring.wr ≠ s.ring.wr → i = .evEdgeIsr) ∧
    (t.edgePhase ≠ s.edgePhase → i = .evEdgeIsr ∨ i = .evEdgeIsrClr) ∧
    (t.ring.rd ≠ s.ring.rd ∨ t.ppm ≠ s.ppm → i = .evDecodeOne ∨ i = .evDecodeEnd) ∧
    (t.decPhase ≠ s.decPhase → i = .ppmPre ∨ i = .evDecodeEnd) ∧
    (t.srv ≠ s.srv → (∃ ch v a, i = .srvSet ch v a) ∨ ∃ ch en, i = .cfgEnable ch en) ∧
    (t.rsp ≠ s.rsp → ∃ w, encode i = .command w)

/-- What a command reports (60_exceptions.md R138, R139; D32): ILL iff the word is illegal; OK = 0 iff the command raises
a condition or is a `PPM_SET`. -/
def Obligations.ResultWordReportsTheCondition : Prop :=
  ∀ (s : State) (w : Word32), s.decPhase = false → s.edgePhase = false →
    ∃ t, runOffer (.command w) s = .next t ∧
      (t.rsp.getLsbD 30 = true ↔ offerCondition (.command w) s = some .illegal) ∧
      (t.rsp.getLsbD 31 = false ↔
        (offerCondition (.command w) s).isSome = true ∨ ∃ ch v a, decode (.command w) = .ok (.ppmSet ch v a))

/-- Weak fairness (60_exceptions.md R160; that the block's runs are fair in this way is the model's choice, log 5 and
33): a pending handler runs, and an offer that is made again and again and is always enabled, an input or output tick
among them, is taken; from every state, so again and again. -/
def Obligations.HandlersRunAndTicksKeepTicking : Prop :=
  ∀ s : State, Admitted s.cfg → OffersOfAgents (s.offers ++ s.cycle) →
    (s.tmr.flag = true → ∃ k t, Host.Core.run Sys2Proof.core k s = .next t ∧ t.tmr.flag = false) ∧
    (s.edgeFlag = true → ∃ k t, Host.Core.run Sys2Proof.core k s = .next t ∧ t.edgeFlag = false) ∧
    (s.edgePhase = true → ∃ k t, Host.Core.run Sys2Proof.core k s = .next t ∧ t.edgePhase = false) ∧
    (∀ o ∈ s.cycle, (∃ i, decode o = .ok i ∧ ∀ u, enabled i u = true) →
      ∃ k t, Host.Core.run Sys2Proof.core k s = .next t ∧ nextMove t = some o ∧ t.cycle = s.cycle)

/-- What is observed of a run (60_exceptions.md R158; D41; log 35) agrees with the run: the last value seen on `RSP` and
the last values seen on the ports are those of the state reached, every step that writes `RSP` shows one value, and the
tick counts add up to the output ticks of the run. -/
def Obligations.TraceAgreesWithTheRun : Prop :=
  ∀ (k : Nat) (s t : State), Host.Core.run Sys2Proof.core k s = .next t →
    (traceRun k s Trace.start).responses.getLastD s.rsp = t.rsp ∧
    ((traceRun k s Trace.start).changes.map Prod.snd).getLastD (s.outPort, s.outDrive) = (t.outPort, t.outDrive) ∧
    (traceRun k s Trace.start).responses.length = (movesRun k s).countP writesRsp ∧
    (traceRun k s Trace.start).totalTicks = (movesRun k s).countP isTickOut
end

