-- ==== Sys2Proof/Laws/Builder.lean ====
section
/-! SUPPORT. The builder's parts: XOR of masks, one lane's move, the next event, and the shape of the result. -/

namespace Sys2Proof.Machine

@[simp] theorem xorMasks_nil : xorMasks [] = 0 := rfl

@[simp] theorem xorMasks_cons (m : PortMask) (ms : List PortMask) : xorMasks (m :: ms) = m ^^^ xorMasks ms := rfl

theorem xorMasks_append (xs ys : List PortMask) : xorMasks (xs ++ ys) = xorMasks xs ^^^ xorMasks ys := by
  induction xs with
  | nil => simp
  | cons x xs ih => simp [ih, Nat.xor_assoc]

/-- XOR of masks below `2 ^ w` is below it. -/
theorem xorMasks_lt {w : Nat} {ms : List PortMask} (h : ∀ m ∈ ms, m < 2 ^ w) : xorMasks ms < 2 ^ w := by
  induction ms with
  | nil => simp
  | cons m ms ih =>
    simp only [xorMasks_cons]
    exact Nat.xor_lt_two_pow (h m (by simp)) (ih fun x hx => h x (by simp [hx]))

@[simp] theorem orMasks_nil : orMasks [] = 0 := rfl

@[simp] theorem orMasks_cons (m : PortMask) (ms : List PortMask) : orMasks (m :: ms) = m ||| orMasks ms := rfl

theorem orMasks_lt {w : Nat} {ms : List PortMask} (h : ∀ m ∈ ms, m < 2 ^ w) : orMasks ms < 2 ^ w := by
  induction ms with
  | nil => simp
  | cons m ms ih =>
    simp only [orMasks_cons]
    exact Nat.or_lt_two_pow (h m (by simp)) (ih fun x hx => h x (by simp [hx]))

/-- The channels dealt are in range and both enabled and active (43_schedule_builder.md R115). -/
theorem mem_dealtChannels {cfg : Config} {srv : List Servo} {c : Nat} :
    c ∈ dealtChannels cfg srv ↔ c < cfg.nServo ∧ (servoAt srv c).enabled = true ∧ (servoAt srv c).active = true := by
  simp [dealtChannels]

theorem dealtChannels_nodup (cfg : Config) (srv : List Servo) : (dealtChannels cfg srv).Nodup :=
  List.nodup_range.filter _

theorem dealtChannels_length_le (cfg : Config) (srv : List Servo) : (dealtChannels cfg srv).length ≤ cfg.nServo := by
  simpa [dealtChannels] using List.length_filter_le (fun c => (servoAt srv c).enabled && (servoAt srv c).active)
    (List.range cfg.nServo)

@[simp] theorem LaneCursor.start_queue (width : Nat → Nat) (q : List Nat) : (LaneCursor.start width q).queue = q := by
  cases q <;> rfl

@[simp] theorem LaneCursor.start_headPin (pin : Nat → PortMask) (width : Nat → Nat) (c : Nat) (q : List Nat) :
    (LaneCursor.start width (c :: q)).headPin pin = pin c := rfl

/-- A lane moves by ending its current channel or by counting down (43_schedule_builder.md R117). -/
theorem LaneCursor.advance_cases (width : Nat → Nat) (d : Nat) (l : LaneCursor) :
    (l.queue = [] ∧ l.advance width d = l) ∨
      ∃ c rest, l.queue = c :: rest ∧
        ((l.left ≤ d ∧ l.advance width d = LaneCursor.start width rest) ∨
          (d < l.left ∧ l.advance width d = { left := l.left - d, queue := c :: rest })) := by
  unfold LaneCursor.advance
  cases hq : l.queue with
  | nil => exact .inl ⟨rfl, rfl⟩
  | cons c rest =>
    refine .inr ⟨c, rest, rfl, ?_⟩
    by_cases h : l.left - d = 0
    · exact .inl ⟨by omega, by simp [h]⟩
    · exact .inr ⟨by omega, by simp [h]⟩

/-- There is no next event iff every lane is done. -/
theorem nextEvent_none {lanes : List LaneCursor} : nextEvent lanes = none ↔ ∀ l ∈ lanes, l.queue = [] := by
  simp [nextEvent, List.min?_eq_none_iff, List.filter_eq_nil_iff]

/-- The next event is the least time left of a lane that is not done. -/
theorem nextEvent_some {lanes : List LaneCursor} {d : Nat} (h : nextEvent lanes = some d) :
    (∃ l ∈ lanes, l.queue ≠ [] ∧ l.left = d) ∧ ∀ l ∈ lanes, l.queue ≠ [] → d ≤ l.left := by
  obtain ⟨hm, hle⟩ := List.min?_eq_some_iff.mp h
  constructor
  · obtain ⟨l, hl, rfl⟩ := List.mem_map.mp hm
    obtain ⟨hl, hq⟩ := List.mem_filter.mp hl
    exact ⟨l, hl, by simpa using hq, rfl⟩
  · intro l hl hq
    exact hle _ (List.mem_map.mpr ⟨l, List.mem_filter.mpr ⟨hl, by simpa using hq⟩, rfl⟩)

/-- A build has at least one step (its last). -/
theorem buildSteps_ne_nil (cfg : Config) (width : Nat → Nat) (fuel : Nat) (lanes : List LaneCursor) (mask : PortMask)
    (sum : Nat) : buildSteps cfg width fuel lanes mask sum ≠ [] := by
  cases fuel with
  | zero => simp [buildSteps]
  | succ n =>
    simp only [buildSteps]
    split <;> simp

/-- A build has at most one step more than its fuel. -/
theorem buildSteps_length_le (cfg : Config) (width : Nat → Nat) (fuel : Nat) :
    ∀ (lanes : List LaneCursor) (mask : PortMask) (sum : Nat),
      (buildSteps cfg width fuel lanes mask sum).length ≤ fuel + 1 := by
  induction fuel with
  | zero => intro lanes mask sum; simp [buildSteps]
  | succ n ih =>
    intro lanes mask sum
    simp only [buildSteps]
    split
    · simp
    · simpa using ih _ _ _

end Sys2Proof.Machine
end

