-- ==== Sys2Proof/Laws/Decode.lean ====
section
/-! SUPPORT. The fields of an encoded command word, and the rows of R76 do not overlap. -/

namespace Sys2Proof

variable (op : BitVec 4) (ch : Channel) (a : Bool) (v : Tick)

@[simp] theorem opField_cmdWord : opField (cmdWord op ch a v) = op := by
  ext i hi
  simp only [opField, cmdWord, BitVec.getElem_extractLsb', BitVec.getLsbD_append]
  interval_cases i <;> simp [BitVec.getLsbD_eq_getElem]

@[simp] theorem chField_cmdWord : chField (cmdWord op ch a v) = ch := by
  ext i hi
  simp only [chField, cmdWord, BitVec.getElem_extractLsb', BitVec.getLsbD_append]
  interval_cases i <;> simp [BitVec.getLsbD_eq_getElem]

@[simp] theorem aField_cmdWord : aField (cmdWord op ch a v) = a := by
  unfold aField cmdWord
  simp only [BitVec.getLsbD_append]
  simp

@[simp] theorem rsvField_cmdWord : rsvField (cmdWord op ch a v) = 0#6 := by
  ext i hi
  simp only [rsvField, cmdWord, BitVec.getElem_extractLsb', BitVec.getLsbD_append]
  interval_cases i <;> simp

@[simp] theorem vField_cmdWord : vField (cmdWord op ch a v) = v := by
  ext i hi
  simp only [vField, cmdWord, BitVec.getElem_extractLsb', BitVec.getLsbD_append]
  interval_cases i <;> simp [BitVec.getLsbD_eq_getElem]

/-- Where a mask looks at no operand bit that can differ, two words agree under it. -/
theorem cmdWord_and_eq {m p : Word32} (h : ∀ i < 32, ((cmdWord op ch a v).getLsbD i && m.getLsbD i) = p.getLsbD i) :
    cmdWord op ch a v &&& m = p := by
  apply BitVec.eq_of_getLsbD_eq
  intro i hi
  rw [BitVec.getLsbD_and]
  exact h i hi

/-- No word encodes two rows: where both masks look, the patterns of two rows differ (R76). -/
theorem commandRows_disjoint :
    commandRows.Pairwise (fun r r' => r.pattern &&& r.mask &&& r'.mask ≠ r'.pattern &&& r.mask &&& r'.mask) := by
  decide

theorem selOfBit_bitOfSel (sel : CounterSel) : selOfBit (bitOfSel sel) = sel := by cases sel <;> rfl

theorem bitOfSel_selOfBit (b : Bool) : bitOfSel (selOfBit b) = b := by cases b <;> rfl

end Sys2Proof
end

