-- ==== Sys2Proof/Laws/Observe.lean ====
section
/-! SUPPORT. What one record adds to a trace. -/

namespace Sys2Proof.Machine

@[simp] theorem Trace.start_responses : Trace.start.responses = [] := rfl

@[simp] theorem Trace.start_changes : Trace.start.changes = [] := rfl

@[simp] theorem Trace.start_totalTicks : Trace.start.totalTicks = 0 := rfl

/-- A record adds the value of `RSP` iff the move writes it. -/
theorem Trace.record_responses (tr : Trace) (m : Option Offer) (s t : State) :
    (tr.record m s t).responses = tr.responses ++ (if m.any writesRsp then [t.rsp] else []) := by
  by_cases hm : m.any writesRsp = true <;> by_cases h : t.outPort = s.outPort ∧ t.outDrive = s.outDrive <;>
    simp [Trace.record, Trace.responses, hm, h]

/-- A record adds the outputs iff they changed, with the ticks since the last change. -/
theorem Trace.record_changes (tr : Trace) (m : Option Offer) (s t : State) :
    (tr.record m s t).changes = tr.changes ++
      (if t.outPort = s.outPort ∧ t.outDrive = s.outDrive then []
        else [(tr.ticks + (if m.any isTickOut then 1 else 0), t.outPort, t.outDrive)]) := by
  by_cases hm : m.any writesRsp = true <;> by_cases h : t.outPort = s.outPort ∧ t.outDrive = s.outDrive <;>
    simp [Trace.record, Trace.changes, hm, h]

/-- A record counts the output tick, whether or not the outputs change. -/
theorem Trace.record_totalTicks (tr : Trace) (m : Option Offer) (s t : State) :
    (tr.record m s t).totalTicks = tr.totalTicks + (if m.any isTickOut then 1 else 0) := by
  by_cases h : t.outPort = s.outPort ∧ t.outDrive = s.outDrive
  · simp [Trace.totalTicks, Trace.record_changes, h]
    simp [Trace.record, h]; omega
  · simp [Trace.totalTicks, Trace.record_changes, h]
    simp [Trace.record, h]; omega

end Sys2Proof.Machine
end

