-- ==== Sys2Proof/Laws/State.lean ====
section
/-! SUPPORT. One lemma per field per write of one element: the written field holds the value, every other field is
unchanged. -/

namespace Sys2Proof.Machine

variable (s : State)

section setInPort
variable (v : PortMask)
@[simp] theorem State.setInPort_cfg : (s.setInPort v).cfg = s.cfg := rfl
@[simp] theorem State.setInPort_inPort : (s.setInPort v).inPort = v := rfl
@[simp] theorem State.setInPort_outPort : (s.setInPort v).outPort = s.outPort := rfl
@[simp] theorem State.setInPort_outDrive : (s.setInPort v).outDrive = s.outDrive := rfl
@[simp] theorem State.setInPort_tbIn : (s.setInPort v).tbIn = s.tbIn := rfl
@[simp] theorem State.setInPort_tmr : (s.setInPort v).tmr = s.tmr := rfl
@[simp] theorem State.setInPort_edgeFlag : (s.setInPort v).edgeFlag = s.edgeFlag := rfl
@[simp] theorem State.setInPort_edgePhase : (s.setInPort v).edgePhase = s.edgePhase := rfl
@[simp] theorem State.setInPort_decPhase : (s.setInPort v).decPhase = s.decPhase := rfl
@[simp] theorem State.setInPort_ring : (s.setInPort v).ring = s.ring := rfl
@[simp] theorem State.setInPort_ppm : (s.setInPort v).ppm = s.ppm := rfl
@[simp] theorem State.setInPort_srv : (s.setInPort v).srv = s.srv := rfl
@[simp] theorem State.setInPort_sched : (s.setInPort v).sched = s.sched := rfl
@[simp] theorem State.setInPort_rsp : (s.setInPort v).rsp = s.rsp := rfl
@[simp] theorem State.setInPort_offers : (s.setInPort v).offers = s.offers := rfl
@[simp] theorem State.setInPort_cycle : (s.setInPort v).cycle = s.cycle := rfl
@[simp] theorem State.setInPort_draws : (s.setInPort v).draws = s.draws := rfl
end setInPort

section setOutPort
variable (v : PortMask)
@[simp] theorem State.setOutPort_cfg : (s.setOutPort v).cfg = s.cfg := rfl
@[simp] theorem State.setOutPort_inPort : (s.setOutPort v).inPort = s.inPort := rfl
@[simp] theorem State.setOutPort_outPort : (s.setOutPort v).outPort = v := rfl
@[simp] theorem State.setOutPort_outDrive : (s.setOutPort v).outDrive = s.outDrive := rfl
@[simp] theorem State.setOutPort_tbIn : (s.setOutPort v).tbIn = s.tbIn := rfl
@[simp] theorem State.setOutPort_tmr : (s.setOutPort v).tmr = s.tmr := rfl
@[simp] theorem State.setOutPort_edgeFlag : (s.setOutPort v).edgeFlag = s.edgeFlag := rfl
@[simp] theorem State.setOutPort_edgePhase : (s.setOutPort v).edgePhase = s.edgePhase := rfl
@[simp] theorem State.setOutPort_decPhase : (s.setOutPort v).decPhase = s.decPhase := rfl
@[simp] theorem State.setOutPort_ring : (s.setOutPort v).ring = s.ring := rfl
@[simp] theorem State.setOutPort_ppm : (s.setOutPort v).ppm = s.ppm := rfl
@[simp] theorem State.setOutPort_srv : (s.setOutPort v).srv = s.srv := rfl
@[simp] theorem State.setOutPort_sched : (s.setOutPort v).sched = s.sched := rfl
@[simp] theorem State.setOutPort_rsp : (s.setOutPort v).rsp = s.rsp := rfl
@[simp] theorem State.setOutPort_offers : (s.setOutPort v).offers = s.offers := rfl
@[simp] theorem State.setOutPort_cycle : (s.setOutPort v).cycle = s.cycle := rfl
@[simp] theorem State.setOutPort_draws : (s.setOutPort v).draws = s.draws := rfl
end setOutPort

section setOutDrive
variable (v : PortMask)
@[simp] theorem State.setOutDrive_cfg : (s.setOutDrive v).cfg = s.cfg := rfl
@[simp] theorem State.setOutDrive_inPort : (s.setOutDrive v).inPort = s.inPort := rfl
@[simp] theorem State.setOutDrive_outPort : (s.setOutDrive v).outPort = s.outPort := rfl
@[simp] theorem State.setOutDrive_outDrive : (s.setOutDrive v).outDrive = v := rfl
@[simp] theorem State.setOutDrive_tbIn : (s.setOutDrive v).tbIn = s.tbIn := rfl
@[simp] theorem State.setOutDrive_tmr : (s.setOutDrive v).tmr = s.tmr := rfl
@[simp] theorem State.setOutDrive_edgeFlag : (s.setOutDrive v).edgeFlag = s.edgeFlag := rfl
@[simp] theorem State.setOutDrive_edgePhase : (s.setOutDrive v).edgePhase = s.edgePhase := rfl
@[simp] theorem State.setOutDrive_decPhase : (s.setOutDrive v).decPhase = s.decPhase := rfl
@[simp] theorem State.setOutDrive_ring : (s.setOutDrive v).ring = s.ring := rfl
@[simp] theorem State.setOutDrive_ppm : (s.setOutDrive v).ppm = s.ppm := rfl
@[simp] theorem State.setOutDrive_srv : (s.setOutDrive v).srv = s.srv := rfl
@[simp] theorem State.setOutDrive_sched : (s.setOutDrive v).sched = s.sched := rfl
@[simp] theorem State.setOutDrive_rsp : (s.setOutDrive v).rsp = s.rsp := rfl
@[simp] theorem State.setOutDrive_offers : (s.setOutDrive v).offers = s.offers := rfl
@[simp] theorem State.setOutDrive_cycle : (s.setOutDrive v).cycle = s.cycle := rfl
@[simp] theorem State.setOutDrive_draws : (s.setOutDrive v).draws = s.draws := rfl
end setOutDrive

section setTbIn
variable (v : Tick)
@[simp] theorem State.setTbIn_cfg : (s.setTbIn v).cfg = s.cfg := rfl
@[simp] theorem State.setTbIn_inPort : (s.setTbIn v).inPort = s.inPort := rfl
@[simp] theorem State.setTbIn_outPort : (s.setTbIn v).outPort = s.outPort := rfl
@[simp] theorem State.setTbIn_outDrive : (s.setTbIn v).outDrive = s.outDrive := rfl
@[simp] theorem State.setTbIn_tbIn : (s.setTbIn v).tbIn = v := rfl
@[simp] theorem State.setTbIn_tmr : (s.setTbIn v).tmr = s.tmr := rfl
@[simp] theorem State.setTbIn_edgeFlag : (s.setTbIn v).edgeFlag = s.edgeFlag := rfl
@[simp] theorem State.setTbIn_edgePhase : (s.setTbIn v).edgePhase = s.edgePhase := rfl
@[simp] theorem State.setTbIn_decPhase : (s.setTbIn v).decPhase = s.decPhase := rfl
@[simp] theorem State.setTbIn_ring : (s.setTbIn v).ring = s.ring := rfl
@[simp] theorem State.setTbIn_ppm : (s.setTbIn v).ppm = s.ppm := rfl
@[simp] theorem State.setTbIn_srv : (s.setTbIn v).srv = s.srv := rfl
@[simp] theorem State.setTbIn_sched : (s.setTbIn v).sched = s.sched := rfl
@[simp] theorem State.setTbIn_rsp : (s.setTbIn v).rsp = s.rsp := rfl
@[simp] theorem State.setTbIn_offers : (s.setTbIn v).offers = s.offers := rfl
@[simp] theorem State.setTbIn_cycle : (s.setTbIn v).cycle = s.cycle := rfl
@[simp] theorem State.setTbIn_draws : (s.setTbIn v).draws = s.draws := rfl
end setTbIn

section setTmr
variable (v : Timer)
@[simp] theorem State.setTmr_cfg : (s.setTmr v).cfg = s.cfg := rfl
@[simp] theorem State.setTmr_inPort : (s.setTmr v).inPort = s.inPort := rfl
@[simp] theorem State.setTmr_outPort : (s.setTmr v).outPort = s.outPort := rfl
@[simp] theorem State.setTmr_outDrive : (s.setTmr v).outDrive = s.outDrive := rfl
@[simp] theorem State.setTmr_tbIn : (s.setTmr v).tbIn = s.tbIn := rfl
@[simp] theorem State.setTmr_tmr : (s.setTmr v).tmr = v := rfl
@[simp] theorem State.setTmr_edgeFlag : (s.setTmr v).edgeFlag = s.edgeFlag := rfl
@[simp] theorem State.setTmr_edgePhase : (s.setTmr v).edgePhase = s.edgePhase := rfl
@[simp] theorem State.setTmr_decPhase : (s.setTmr v).decPhase = s.decPhase := rfl
@[simp] theorem State.setTmr_ring : (s.setTmr v).ring = s.ring := rfl
@[simp] theorem State.setTmr_ppm : (s.setTmr v).ppm = s.ppm := rfl
@[simp] theorem State.setTmr_srv : (s.setTmr v).srv = s.srv := rfl
@[simp] theorem State.setTmr_sched : (s.setTmr v).sched = s.sched := rfl
@[simp] theorem State.setTmr_rsp : (s.setTmr v).rsp = s.rsp := rfl
@[simp] theorem State.setTmr_offers : (s.setTmr v).offers = s.offers := rfl
@[simp] theorem State.setTmr_cycle : (s.setTmr v).cycle = s.cycle := rfl
@[simp] theorem State.setTmr_draws : (s.setTmr v).draws = s.draws := rfl
end setTmr

section setEdgeFlag
variable (v : Bool)
@[simp] theorem State.setEdgeFlag_cfg : (s.setEdgeFlag v).cfg = s.cfg := rfl
@[simp] theorem State.setEdgeFlag_inPort : (s.setEdgeFlag v).inPort = s.inPort := rfl
@[simp] theorem State.setEdgeFlag_outPort : (s.setEdgeFlag v).outPort = s.outPort := rfl
@[simp] theorem State.setEdgeFlag_outDrive : (s.setEdgeFlag v).outDrive = s.outDrive := rfl
@[simp] theorem State.setEdgeFlag_tbIn : (s.setEdgeFlag v).tbIn = s.tbIn := rfl
@[simp] theorem State.setEdgeFlag_tmr : (s.setEdgeFlag v).tmr = s.tmr := rfl
@[simp] theorem State.setEdgeFlag_edgeFlag : (s.setEdgeFlag v).edgeFlag = v := rfl
@[simp] theorem State.setEdgeFlag_edgePhase : (s.setEdgeFlag v).edgePhase = s.edgePhase := rfl
@[simp] theorem State.setEdgeFlag_decPhase : (s.setEdgeFlag v).decPhase = s.decPhase := rfl
@[simp] theorem State.setEdgeFlag_ring : (s.setEdgeFlag v).ring = s.ring := rfl
@[simp] theorem State.setEdgeFlag_ppm : (s.setEdgeFlag v).ppm = s.ppm := rfl
@[simp] theorem State.setEdgeFlag_srv : (s.setEdgeFlag v).srv = s.srv := rfl
@[simp] theorem State.setEdgeFlag_sched : (s.setEdgeFlag v).sched = s.sched := rfl
@[simp] theorem State.setEdgeFlag_rsp : (s.setEdgeFlag v).rsp = s.rsp := rfl
@[simp] theorem State.setEdgeFlag_offers : (s.setEdgeFlag v).offers = s.offers := rfl
@[simp] theorem State.setEdgeFlag_cycle : (s.setEdgeFlag v).cycle = s.cycle := rfl
@[simp] theorem State.setEdgeFlag_draws : (s.setEdgeFlag v).draws = s.draws := rfl
end setEdgeFlag

section setEdgePhase
variable (v : Bool)
@[simp] theorem State.setEdgePhase_cfg : (s.setEdgePhase v).cfg = s.cfg := rfl
@[simp] theorem State.setEdgePhase_inPort : (s.setEdgePhase v).inPort = s.inPort := rfl
@[simp] theorem State.setEdgePhase_outPort : (s.setEdgePhase v).outPort = s.outPort := rfl
@[simp] theorem State.setEdgePhase_outDrive : (s.setEdgePhase v).outDrive = s.outDrive := rfl
@[simp] theorem State.setEdgePhase_tbIn : (s.setEdgePhase v).tbIn = s.tbIn := rfl
@[simp] theorem State.setEdgePhase_tmr : (s.setEdgePhase v).tmr = s.tmr := rfl
@[simp] theorem State.setEdgePhase_edgeFlag : (s.setEdgePhase v).edgeFlag = s.edgeFlag := rfl
@[simp] theorem State.setEdgePhase_edgePhase : (s.setEdgePhase v).edgePhase = v := rfl
@[simp] theorem State.setEdgePhase_decPhase : (s.setEdgePhase v).decPhase = s.decPhase := rfl
@[simp] theorem State.setEdgePhase_ring : (s.setEdgePhase v).ring = s.ring := rfl
@[simp] theorem State.setEdgePhase_ppm : (s.setEdgePhase v).ppm = s.ppm := rfl
@[simp] theorem State.setEdgePhase_srv : (s.setEdgePhase v).srv = s.srv := rfl
@[simp] theorem State.setEdgePhase_sched : (s.setEdgePhase v).sched = s.sched := rfl
@[simp] theorem State.setEdgePhase_rsp : (s.setEdgePhase v).rsp = s.rsp := rfl
@[simp] theorem State.setEdgePhase_offers : (s.setEdgePhase v).offers = s.offers := rfl
@[simp] theorem State.setEdgePhase_cycle : (s.setEdgePhase v).cycle = s.cycle := rfl
@[simp] theorem State.setEdgePhase_draws : (s.setEdgePhase v).draws = s.draws := rfl
end setEdgePhase

section setDecPhase
variable (v : Bool)
@[simp] theorem State.setDecPhase_cfg : (s.setDecPhase v).cfg = s.cfg := rfl
@[simp] theorem State.setDecPhase_inPort : (s.setDecPhase v).inPort = s.inPort := rfl
@[simp] theorem State.setDecPhase_outPort : (s.setDecPhase v).outPort = s.outPort := rfl
@[simp] theorem State.setDecPhase_outDrive : (s.setDecPhase v).outDrive = s.outDrive := rfl
@[simp] theorem State.setDecPhase_tbIn : (s.setDecPhase v).tbIn = s.tbIn := rfl
@[simp] theorem State.setDecPhase_tmr : (s.setDecPhase v).tmr = s.tmr := rfl
@[simp] theorem State.setDecPhase_edgeFlag : (s.setDecPhase v).edgeFlag = s.edgeFlag := rfl
@[simp] theorem State.setDecPhase_edgePhase : (s.setDecPhase v).edgePhase = s.edgePhase := rfl
@[simp] theorem State.setDecPhase_decPhase : (s.setDecPhase v).decPhase = v := rfl
@[simp] theorem State.setDecPhase_ring : (s.setDecPhase v).ring = s.ring := rfl
@[simp] theorem State.setDecPhase_ppm : (s.setDecPhase v).ppm = s.ppm := rfl
@[simp] theorem State.setDecPhase_srv : (s.setDecPhase v).srv = s.srv := rfl
@[simp] theorem State.setDecPhase_sched : (s.setDecPhase v).sched = s.sched := rfl
@[simp] theorem State.setDecPhase_rsp : (s.setDecPhase v).rsp = s.rsp := rfl
@[simp] theorem State.setDecPhase_offers : (s.setDecPhase v).offers = s.offers := rfl
@[simp] theorem State.setDecPhase_cycle : (s.setDecPhase v).cycle = s.cycle := rfl
@[simp] theorem State.setDecPhase_draws : (s.setDecPhase v).draws = s.draws := rfl
end setDecPhase

section setRing
variable (v : Ring)
@[simp] theorem State.setRing_cfg : (s.setRing v).cfg = s.cfg := rfl
@[simp] theorem State.setRing_inPort : (s.setRing v).inPort = s.inPort := rfl
@[simp] theorem State.setRing_outPort : (s.setRing v).outPort = s.outPort := rfl
@[simp] theorem State.setRing_outDrive : (s.setRing v).outDrive = s.outDrive := rfl
@[simp] theorem State.setRing_tbIn : (s.setRing v).tbIn = s.tbIn := rfl
@[simp] theorem State.setRing_tmr : (s.setRing v).tmr = s.tmr := rfl
@[simp] theorem State.setRing_edgeFlag : (s.setRing v).edgeFlag = s.edgeFlag := rfl
@[simp] theorem State.setRing_edgePhase : (s.setRing v).edgePhase = s.edgePhase := rfl
@[simp] theorem State.setRing_decPhase : (s.setRing v).decPhase = s.decPhase := rfl
@[simp] theorem State.setRing_ring : (s.setRing v).ring = v := rfl
@[simp] theorem State.setRing_ppm : (s.setRing v).ppm = s.ppm := rfl
@[simp] theorem State.setRing_srv : (s.setRing v).srv = s.srv := rfl
@[simp] theorem State.setRing_sched : (s.setRing v).sched = s.sched := rfl
@[simp] theorem State.setRing_rsp : (s.setRing v).rsp = s.rsp := rfl
@[simp] theorem State.setRing_offers : (s.setRing v).offers = s.offers := rfl
@[simp] theorem State.setRing_cycle : (s.setRing v).cycle = s.cycle := rfl
@[simp] theorem State.setRing_draws : (s.setRing v).draws = s.draws := rfl
end setRing

section setPpm
variable (v : Ppm)
@[simp] theorem State.setPpm_cfg : (s.setPpm v).cfg = s.cfg := rfl
@[simp] theorem State.setPpm_inPort : (s.setPpm v).inPort = s.inPort := rfl
@[simp] theorem State.setPpm_outPort : (s.setPpm v).outPort = s.outPort := rfl
@[simp] theorem State.setPpm_outDrive : (s.setPpm v).outDrive = s.outDrive := rfl
@[simp] theorem State.setPpm_tbIn : (s.setPpm v).tbIn = s.tbIn := rfl
@[simp] theorem State.setPpm_tmr : (s.setPpm v).tmr = s.tmr := rfl
@[simp] theorem State.setPpm_edgeFlag : (s.setPpm v).edgeFlag = s.edgeFlag := rfl
@[simp] theorem State.setPpm_edgePhase : (s.setPpm v).edgePhase = s.edgePhase := rfl
@[simp] theorem State.setPpm_decPhase : (s.setPpm v).decPhase = s.decPhase := rfl
@[simp] theorem State.setPpm_ring : (s.setPpm v).ring = s.ring := rfl
@[simp] theorem State.setPpm_ppm : (s.setPpm v).ppm = v := rfl
@[simp] theorem State.setPpm_srv : (s.setPpm v).srv = s.srv := rfl
@[simp] theorem State.setPpm_sched : (s.setPpm v).sched = s.sched := rfl
@[simp] theorem State.setPpm_rsp : (s.setPpm v).rsp = s.rsp := rfl
@[simp] theorem State.setPpm_offers : (s.setPpm v).offers = s.offers := rfl
@[simp] theorem State.setPpm_cycle : (s.setPpm v).cycle = s.cycle := rfl
@[simp] theorem State.setPpm_draws : (s.setPpm v).draws = s.draws := rfl
end setPpm

section setSrv
variable (v : List Servo)
@[simp] theorem State.setSrv_cfg : (s.setSrv v).cfg = s.cfg := rfl
@[simp] theorem State.setSrv_inPort : (s.setSrv v).inPort = s.inPort := rfl
@[simp] theorem State.setSrv_outPort : (s.setSrv v).outPort = s.outPort := rfl
@[simp] theorem State.setSrv_outDrive : (s.setSrv v).outDrive = s.outDrive := rfl
@[simp] theorem State.setSrv_tbIn : (s.setSrv v).tbIn = s.tbIn := rfl
@[simp] theorem State.setSrv_tmr : (s.setSrv v).tmr = s.tmr := rfl
@[simp] theorem State.setSrv_edgeFlag : (s.setSrv v).edgeFlag = s.edgeFlag := rfl
@[simp] theorem State.setSrv_edgePhase : (s.setSrv v).edgePhase = s.edgePhase := rfl
@[simp] theorem State.setSrv_decPhase : (s.setSrv v).decPhase = s.decPhase := rfl
@[simp] theorem State.setSrv_ring : (s.setSrv v).ring = s.ring := rfl
@[simp] theorem State.setSrv_ppm : (s.setSrv v).ppm = s.ppm := rfl
@[simp] theorem State.setSrv_srv : (s.setSrv v).srv = v := rfl
@[simp] theorem State.setSrv_sched : (s.setSrv v).sched = s.sched := rfl
@[simp] theorem State.setSrv_rsp : (s.setSrv v).rsp = s.rsp := rfl
@[simp] theorem State.setSrv_offers : (s.setSrv v).offers = s.offers := rfl
@[simp] theorem State.setSrv_cycle : (s.setSrv v).cycle = s.cycle := rfl
@[simp] theorem State.setSrv_draws : (s.setSrv v).draws = s.draws := rfl
end setSrv

section setSched
variable (v : Sched)
@[simp] theorem State.setSched_cfg : (s.setSched v).cfg = s.cfg := rfl
@[simp] theorem State.setSched_inPort : (s.setSched v).inPort = s.inPort := rfl
@[simp] theorem State.setSched_outPort : (s.setSched v).outPort = s.outPort := rfl
@[simp] theorem State.setSched_outDrive : (s.setSched v).outDrive = s.outDrive := rfl
@[simp] theorem State.setSched_tbIn : (s.setSched v).tbIn = s.tbIn := rfl
@[simp] theorem State.setSched_tmr : (s.setSched v).tmr = s.tmr := rfl
@[simp] theorem State.setSched_edgeFlag : (s.setSched v).edgeFlag = s.edgeFlag := rfl
@[simp] theorem State.setSched_edgePhase : (s.setSched v).edgePhase = s.edgePhase := rfl
@[simp] theorem State.setSched_decPhase : (s.setSched v).decPhase = s.decPhase := rfl
@[simp] theorem State.setSched_ring : (s.setSched v).ring = s.ring := rfl
@[simp] theorem State.setSched_ppm : (s.setSched v).ppm = s.ppm := rfl
@[simp] theorem State.setSched_srv : (s.setSched v).srv = s.srv := rfl
@[simp] theorem State.setSched_sched : (s.setSched v).sched = v := rfl
@[simp] theorem State.setSched_rsp : (s.setSched v).rsp = s.rsp := rfl
@[simp] theorem State.setSched_offers : (s.setSched v).offers = s.offers := rfl
@[simp] theorem State.setSched_cycle : (s.setSched v).cycle = s.cycle := rfl
@[simp] theorem State.setSched_draws : (s.setSched v).draws = s.draws := rfl
end setSched

section setRsp
variable (v : Word32)
@[simp] theorem State.setRsp_cfg : (s.setRsp v).cfg = s.cfg := rfl
@[simp] theorem State.setRsp_inPort : (s.setRsp v).inPort = s.inPort := rfl
@[simp] theorem State.setRsp_outPort : (s.setRsp v).outPort = s.outPort := rfl
@[simp] theorem State.setRsp_outDrive : (s.setRsp v).outDrive = s.outDrive := rfl
@[simp] theorem State.setRsp_tbIn : (s.setRsp v).tbIn = s.tbIn := rfl
@[simp] theorem State.setRsp_tmr : (s.setRsp v).tmr = s.tmr := rfl
@[simp] theorem State.setRsp_edgeFlag : (s.setRsp v).edgeFlag = s.edgeFlag := rfl
@[simp] theorem State.setRsp_edgePhase : (s.setRsp v).edgePhase = s.edgePhase := rfl
@[simp] theorem State.setRsp_decPhase : (s.setRsp v).decPhase = s.decPhase := rfl
@[simp] theorem State.setRsp_ring : (s.setRsp v).ring = s.ring := rfl
@[simp] theorem State.setRsp_ppm : (s.setRsp v).ppm = s.ppm := rfl
@[simp] theorem State.setRsp_srv : (s.setRsp v).srv = s.srv := rfl
@[simp] theorem State.setRsp_sched : (s.setRsp v).sched = s.sched := rfl
@[simp] theorem State.setRsp_rsp : (s.setRsp v).rsp = v := rfl
@[simp] theorem State.setRsp_offers : (s.setRsp v).offers = s.offers := rfl
@[simp] theorem State.setRsp_cycle : (s.setRsp v).cycle = s.cycle := rfl
@[simp] theorem State.setRsp_draws : (s.setRsp v).draws = s.draws := rfl
end setRsp

section setOffers
variable (v : List Offer)
@[simp] theorem State.setOffers_cfg : (s.setOffers v).cfg = s.cfg := rfl
@[simp] theorem State.setOffers_inPort : (s.setOffers v).inPort = s.inPort := rfl
@[simp] theorem State.setOffers_outPort : (s.setOffers v).outPort = s.outPort := rfl
@[simp] theorem State.setOffers_outDrive : (s.setOffers v).outDrive = s.outDrive := rfl
@[simp] theorem State.setOffers_tbIn : (s.setOffers v).tbIn = s.tbIn := rfl
@[simp] theorem State.setOffers_tmr : (s.setOffers v).tmr = s.tmr := rfl
@[simp] theorem State.setOffers_edgeFlag : (s.setOffers v).edgeFlag = s.edgeFlag := rfl
@[simp] theorem State.setOffers_edgePhase : (s.setOffers v).edgePhase = s.edgePhase := rfl
@[simp] theorem State.setOffers_decPhase : (s.setOffers v).decPhase = s.decPhase := rfl
@[simp] theorem State.setOffers_ring : (s.setOffers v).ring = s.ring := rfl
@[simp] theorem State.setOffers_ppm : (s.setOffers v).ppm = s.ppm := rfl
@[simp] theorem State.setOffers_srv : (s.setOffers v).srv = s.srv := rfl
@[simp] theorem State.setOffers_sched : (s.setOffers v).sched = s.sched := rfl
@[simp] theorem State.setOffers_rsp : (s.setOffers v).rsp = s.rsp := rfl
@[simp] theorem State.setOffers_offers : (s.setOffers v).offers = v := rfl
@[simp] theorem State.setOffers_cycle : (s.setOffers v).cycle = s.cycle := rfl
@[simp] theorem State.setOffers_draws : (s.setOffers v).draws = s.draws := rfl
end setOffers

end Sys2Proof.Machine
end

