-- ==== Sys2Proof/Laws/Ops.lean ====
section
/-! SUPPORT. What the shared operations can do: taking a step (`takeIf`, `command`), the ring, the double buffer. -/

namespace Sys2Proof.Machine

/-! ## Taking a step -/

theorem takeIf_enabled (s t : State) : takeIf true s t = .next t := rfl

theorem takeIf_disabled (s t : State) : takeIf false s t = .next s := rfl

/-- Everything `takeIf` can do. -/
theorem takeIf_cases {ready : Bool} {s t u : State} (h : takeIf ready s t = .next u) :
    (ready = true ∧ u = t) ∨ (ready = false ∧ u = s) := by
  cases ready
  · exact .inr ⟨rfl, by simpa [takeIf] using h.symm⟩
  · exact .inl ⟨rfl, by simpa [takeIf] using h.symm⟩

theorem takeIf_answers (ready : Bool) (s t : State) : ∃ u, takeIf ready s t = .next u := ⟨_, rfl⟩

theorem command_enabled {s t : State} {w : Word32} (h : taskReady s = true) : command s t w = .next (t.setRsp w) := by
  simp [command, takeIf, h]

/-- Everything a command can do: write its result word with its effect, or wait. -/
theorem command_cases {s t u : State} {w : Word32} (h : command s t w = .next u) :
    (taskReady s = true ∧ u = t.setRsp w) ∨ (taskReady s = false ∧ u = s) := takeIf_cases h

theorem taskReady_iff (s : State) : taskReady s = true ↔ s.decPhase = false ∧ s.edgePhase = false := by
  simp [taskReady]

theorem decodeOneReady_iff (s : State) :
    decodeOneReady s = true ↔ s.decPhase = true ∧ s.ring.rd ≠ s.ring.wr ∧ s.edgePhase = false := by
  simp [decodeOneReady, Ring.isEmpty, and_assoc]

theorem decodeEndReady_iff (s : State) :
    decodeEndReady s = true ↔ s.decPhase = true ∧ s.ring.rd = s.ring.wr ∧ s.edgePhase = false := by
  simp [decodeEndReady, Ring.isEmpty, and_assoc]

theorem edgeIsrReady_iff (s : State) : edgeIsrReady s = true ↔ s.edgeFlag = true ∧ s.edgePhase = false := by
  simp [edgeIsrReady]

/-! ## The ring -/

theorem ringNext_lt {cap : Nat} (h : 0 < cap) (i : Nat) : ringNext cap i < cap := Nat.mod_lt _ h

theorem ringNext_of_lt {cap i : Nat} (h : i + 1 < cap) : ringNext cap i = i + 1 := Nat.mod_eq_of_lt h

theorem ringNext_last {cap : Nat} (h : 0 < cap) : ringNext cap (cap - 1) = 0 := by
  simp [ringNext, Nat.sub_add_cancel h]

theorem Ring.push_full {cap : Nat} {r : Ring} (h : r.isFull cap = true) (ev : EdgeEvent) : r.push cap ev = r := by
  simp [Ring.push, h]

theorem Ring.push_free {cap : Nat} {r : Ring} (h : r.isFull cap = false) (ev : EdgeEvent) :
    r.push cap ev = { slots := r.slots.set r.wr ev, wr := ringNext cap r.wr, rd := r.rd } := by
  simp [Ring.push, h]

/-- A push writes neither the read index nor the number of slots. -/
theorem Ring.push_rd (cap : Nat) (r : Ring) (ev : EdgeEvent) : (r.push cap ev).rd = r.rd := by
  unfold Ring.push; split <;> rfl

theorem Ring.push_length (cap : Nat) (r : Ring) (ev : EdgeEvent) : (r.push cap ev).slots.length = r.slots.length := by
  unfold Ring.push; split <;> simp

theorem Ring.push_wr_lt {cap : Nat} {r : Ring} (hc : 0 < cap) (h : r.wr < cap) (ev : EdgeEvent) :
    (r.push cap ev).wr < cap := by
  unfold Ring.push; split
  · exact h
  · exact ringNext_lt hc _

/-- Every slot after a push held the event pushed or what it held. -/
theorem Ring.push_mem {cap : Nat} {r : Ring} {ev x : EdgeEvent} (h : x ∈ (r.push cap ev).slots) :
    x = ev ∨ x ∈ r.slots := by
  unfold Ring.push at h; split at h
  · exact .inr h
  · exact (List.mem_or_eq_of_mem_set h).symm

/-- Everything a pop can do. -/
theorem Ring.pop_cases (cap : Nat) (r : Ring) :
    (r.rd = r.wr ∧ r.pop cap = none) ∨
      (r.rd ≠ r.wr ∧ r.pop cap = some (r.slot r.rd, { slots := r.slots, wr := r.wr, rd := ringNext cap r.rd })) := by
  by_cases h : r.rd = r.wr
  · exact .inl ⟨h, by simp [Ring.pop, Ring.isEmpty, h]⟩
  · exact .inr ⟨h, by simp [Ring.pop, Ring.isEmpty, h]⟩

/-! ## The double buffer -/

@[simp] theorem Sched.setBuffer_same (d : Sched) (b : Bool) (x : Buffer) : (d.setBuffer b x).buffer b = x := by
  cases b <;> rfl

@[simp] theorem Sched.setBuffer_other (d : Sched) (b : Bool) (x : Buffer) : (d.setBuffer (!b) x).buffer b = d.buffer b := by
  cases b <;> rfl

@[simp] theorem Sched.setBuffer_cur (d : Sched) (b : Bool) (x : Buffer) : (d.setBuffer b x).cur = d.cur := by
  cases b <;> rfl

@[simp] theorem Sched.setBuffer_nextPending (d : Sched) (b : Bool) (x : Buffer) :
    (d.setBuffer b x).nextPending = d.nextPending := by
  cases b <;> rfl

@[simp] theorem Buffer.load_len (b : Buffer) (st : List PulseStep) (m : PortMask) : (b.load st m).len = st.length := rfl

@[simp] theorem Buffer.load_drive (b : Buffer) (st : List PulseStep) (m : PortMask) : (b.load st m).drive = m := rfl

@[simp] theorem Buffer.load_take (b : Buffer) (st : List PulseStep) (m : PortMask) :
    (b.load st m).steps.take st.length = st := by
  simp [Buffer.load]

@[simp] theorem Buffer.load_drop (b : Buffer) (st : List PulseStep) (m : PortMask) :
    (b.load st m).steps.drop st.length = b.steps.drop st.length := by
  simp [Buffer.load]

theorem Buffer.load_length {b : Buffer} {st : List PulseStep} (m : PortMask) (h : st.length ≤ b.steps.length) :
    (b.load st m).steps.length = b.steps.length := by
  simp only [Buffer.load, List.length_append, List.length_drop]; omega

theorem Buffer.step_of_get {b : Buffer} {k : Nat} {st : PulseStep} (h : b.steps[k]? = some st) : b.step k = st := by
  simp [Buffer.step, h]

theorem servoAt_of_get {srv : List Servo} {c : Nat} {x : Servo} (h : srv[c]? = some x) : servoAt srv c = x := by
  simp [servoAt, h]

end Sys2Proof.Machine
end

