-- ==== Sys2Proof/Laws/PerInstr.lean ====
section
/-! SUPPORT. Per instruction: the encoder writes the bits that the instruction's row of spec/opcode_table.json fixes
(its `match` under its `mask`). -/

namespace Sys2Proof.Laws.FixedBits

/-- The offer carries a command word with `pattern` under `mask`. -/
def isCommand (pattern mask : Word32) : Offer → Prop
  | .command w => w &&& mask = pattern
  | .event _ _ => False

/-- The offer carries an event code. -/
def isEvent (code : EventCode) : Offer → Prop
  | .command _ => False
  | .event c _ => c = code

/-- The row's fixed bits, one case per row of the table. -/
def Statement : Instr → Prop
  | .tbNow sel => isCommand 0x10000000#32 0xFFBFFFFF#32 (encode (.tbNow sel))
  | .tbElapsed sel since => isCommand 0x20000000#32 0xFFBF0000#32 (encode (.tbElapsed sel since))
  | .ppmPre => isCommand 0x30000000#32 0xFFFFFFFF#32 (encode .ppmPre)
  | .ppmGet ch => isCommand 0x40000000#32 0xF07FFFFF#32 (encode (.ppmGet ch))
  | .ppmSet ch value active => isCommand 0x50000000#32 0xF03F0000#32 (encode (.ppmSet ch value active))
  | .ppmPost => isCommand 0x60000000#32 0xFFFFFFFF#32 (encode .ppmPost)
  | .srvPre => isCommand 0x70000000#32 0xFFFFFFFF#32 (encode .srvPre)
  | .srvGet ch => isCommand 0x80000000#32 0xF07FFFFF#32 (encode (.srvGet ch))
  | .srvSet ch value active => isCommand 0x90000000#32 0xF03F0000#32 (encode (.srvSet ch value active))
  | .srvPost => isCommand 0xA0000000#32 0xFFFFFFFF#32 (encode .srvPost)
  | .cfgEnable ch en => isCommand 0xB0000000#32 0xF03FFFFF#32 (encode (.cfgEnable ch en))
  | .evTickIn => isEvent 0x01#8 (encode .evTickIn)
  | .evTickOut => isEvent 0x02#8 (encode .evTickOut)
  | .evPin p => isEvent 0x03#8 (encode (.evPin p))
  | .evEdgeIsr => isEvent 0x04#8 (encode .evEdgeIsr)
  | .evEdgeIsrClr => isEvent 0x05#8 (encode .evEdgeIsrClr)
  | .evTimerIsr => isEvent 0x06#8 (encode .evTimerIsr)
  | .evDecodeOne => isEvent 0x07#8 (encode .evDecodeOne)
  | .evDecodeEnd => isEvent 0x08#8 (encode .evDecodeEnd)
  | .evReset => isEvent 0x09#8 (encode .evReset)

theorem tbNow (sel : CounterSel) : Statement (.tbNow sel) := by cases sel <;> exact rfl

theorem tbElapsed (sel : CounterSel) (since : Tick) : Statement (.tbElapsed sel since) := by
  refine cmdWord_and_eq _ _ _ _ fun i hi => ?_
  simp only [cmdWord, BitVec.getLsbD_append]
  interval_cases i <;> simp

theorem ppmPre : Statement .ppmPre := rfl

theorem ppmGet (ch : Channel) : Statement (.ppmGet ch) := by
  refine cmdWord_and_eq _ _ _ _ fun i hi => ?_
  simp only [cmdWord, BitVec.getLsbD_append]
  interval_cases i <;> simp

theorem ppmSet (ch : Channel) (value : Tick) (active : Bool) : Statement (.ppmSet ch value active) := by
  refine cmdWord_and_eq _ _ _ _ fun i hi => ?_
  simp only [cmdWord, BitVec.getLsbD_append]
  interval_cases i <;> simp

theorem ppmPost : Statement .ppmPost := rfl

theorem srvPre : Statement .srvPre := rfl

theorem srvGet (ch : Channel) : Statement (.srvGet ch) := by
  refine cmdWord_and_eq _ _ _ _ fun i hi => ?_
  simp only [cmdWord, BitVec.getLsbD_append]
  interval_cases i <;> simp

theorem srvSet (ch : Channel) (value : Tick) (active : Bool) : Statement (.srvSet ch value active) := by
  refine cmdWord_and_eq _ _ _ _ fun i hi => ?_
  simp only [cmdWord, BitVec.getLsbD_append]
  interval_cases i <;> simp

theorem srvPost : Statement .srvPost := rfl

theorem cfgEnable (ch : Channel) (en : Bool) : Statement (.cfgEnable ch en) := by
  refine cmdWord_and_eq _ _ _ _ fun i hi => ?_
  simp only [cmdWord, BitVec.getLsbD_append]
  interval_cases i <;> simp

theorem evTickIn : Statement .evTickIn := rfl
theorem evTickOut : Statement .evTickOut := rfl
theorem evPin (p : PortMask) : Statement (.evPin p) := rfl
theorem evEdgeIsr : Statement .evEdgeIsr := rfl
theorem evEdgeIsrClr : Statement .evEdgeIsrClr := rfl
theorem evTimerIsr : Statement .evTimerIsr := rfl
theorem evDecodeOne : Statement .evDecodeOne := rfl
theorem evDecodeEnd : Statement .evDecodeEnd := rfl
theorem evReset : Statement .evReset := rfl

end Sys2Proof.Laws.FixedBits
end

