-- ==== Sys2Proof/Laws/Step.lean ====
section
/-! SUPPORT. Everything a step of the machine can do, and how the offers are searched. -/

namespace Sys2Proof.Machine

/-- A step runs one offer, or a pending handler, or the drain's next step with the environment's next offers, or only
those offers come. -/
theorem step_cases (s : State) :
    (∃ o rest, takeOffer s s.offers = some (o, rest) ∧ step s = runOffer o (s.setOffers rest)) ∨
      (takeOffer s s.offers = none ∧ ∃ i, handlerStep s = some i ∧ step s = exec i s) ∨
      (takeOffer s s.offers = none ∧ handlerStep s = none ∧ ∃ i, drainStep s = some i ∧ step s = exec i s.refill) ∨
      (takeOffer s s.offers = none ∧ handlerStep s = none ∧ drainStep s = none ∧ step s = .next s.refill) := by
  unfold step stepOnce
  cases ht : takeOffer s s.offers with
  | some p => exact .inl ⟨p.1, p.2, rfl, rfl⟩
  | none =>
    refine .inr ?_
    unfold runPending
    cases hh : handlerStep s with
    | some i => exact .inl ⟨rfl, i, rfl, rfl⟩
    | none =>
      refine .inr ?_
      cases hd : drainStep s with
      | some i => exact .inl ⟨rfl, rfl, i, rfl, rfl⟩
      | none => exact .inr ⟨rfl, rfl, rfl, rfl⟩

/-- No offer is taken iff none is ready. -/
theorem takeOffer_none {s : State} {l : List Offer} : takeOffer s l = none ↔ ∀ o ∈ l, offerReady s o = false := by
  induction l with
  | nil => simp [takeOffer]
  | cons x xs ih =>
    by_cases hx : offerReady s x = true
    · simp [takeOffer, hx]
    · cases ht : takeOffer s xs with
      | none => simpa [takeOffer, hx, ht] using ih.mp ht
      | some p =>
        have hne : ¬ ∀ o ∈ xs, offerReady s o = false := fun h => by simp [ih.mpr h] at ht
        simpa [takeOffer, hx, ht] using hne

/-- The offers still waiting come before those the environment offers again. -/
@[simp] theorem State.refill_offers (s : State) : s.refill.offers = s.offers ++ s.cycle := rfl

@[simp] theorem State.refill_cycle (s : State) : s.refill.cycle = s.cycle := rfl

theorem State.refill_of_cycle_nil {s : State} (h : s.cycle = []) : s.refill = s := by
  unfold State.refill
  rw [h, List.append_nil]
  rfl

/-- A handler step is enabled. -/
theorem handlerStep_enabled {s : State} {i : Instr} (h : handlerStep s = some i) : enabled i s = true := by
  unfold handlerStep at h
  split at h
  · cases h; assumption
  split at h
  · cases h; assumption
  split at h
  · cases h; assumption
  · cases h

/-- A drain step is enabled, and is one of the two. -/
theorem drainStep_enabled {s : State} {i : Instr} (h : drainStep s = some i) :
    enabled i s = true ∧ (i = .evDecodeOne ∨ i = .evDecodeEnd) := by
  unfold drainStep at h
  split at h
  · cases h; exact ⟨‹_›, .inl rfl⟩
  split at h
  · cases h; exact ⟨‹_›, .inr rfl⟩
  · cases h

/-- The offer taken is ready, it is one of the offers, and no offer before it is ready. -/
theorem takeOffer_some {s : State} {l rest : List Offer} {o : Offer} (h : takeOffer s l = some (o, rest)) :
    ∃ pre post, l = pre ++ o :: post ∧ rest = pre ++ post ∧ offerReady s o = true ∧
      ∀ p ∈ pre, offerReady s p = false := by
  induction l generalizing rest with
  | nil => simp [takeOffer] at h
  | cons x xs ih =>
    by_cases hx : offerReady s x = true
    · simp only [takeOffer, hx, if_true, Option.some.injEq, Prod.mk.injEq] at h
      obtain ⟨rfl, rfl⟩ := h
      exact ⟨[], xs, rfl, rfl, hx, by simp⟩
    · simp only [takeOffer, hx] at h
      cases ht : takeOffer s xs with
      | none => simp [ht] at h
      | some p =>
        simp only [ht, Bool.false_eq_true, if_false, Option.some.injEq, Prod.mk.injEq] at h
        obtain ⟨h1, h2⟩ := h
        obtain ⟨pre, post, rfl, hr, ho, hp⟩ := ih (rest := p.2) (by rw [ht, ← h1])
        exact ⟨x :: pre, post, rfl, by rw [← h2, hr]; rfl, ho, by
          intro q hq
          rcases List.mem_cons.mp hq with rfl | hq
          · simpa using hx
          · exact hp q hq⟩

/-- A pending step is enabled. -/
theorem pendingStep_enabled {s : State} {i : Instr} (h : pendingStep s = some i) : enabled i s = true := by
  unfold pendingStep at h
  cases hh : handlerStep s with
  | some j => rw [hh] at h; cases h; exact handlerStep_enabled hh
  | none => rw [hh] at h; exact (drainStep_enabled h).1

end Sys2Proof.Machine
end

