-- ==== Sys2Proof/Tests/Slice0.lean ====
section
/-! SUPPORT. The model's own tests: words written out from the spec's encodings, vectors of 95_test_vectors.md (each test
names its vector), and a witness for the hypotheses of every statement. -/

namespace Sys2Proof.Tests

open Sys2Proof Sys2Proof.Machine

/-- The next state of an answer, if it is one. -/
def nextOf : Answer → Option State
  | .next s => some s
  | .fault _ => none
  | .refused _ => none

/-! ## WellFormed: its one check refuses -/

theorem test_wf_refuses_a_payload_wider_than_the_port : Instr.wf 32 (.evPin (2 ^ 32)) = false := by decide

theorem test_wf_admits_a_full_payload : Instr.wf 32 (.evPin (2 ^ 32 - 1)) = true := by decide

/-! ## Decoding: one word per constructor, bit by bit as OOOO CCCC CAzz zzzz VVVV VVVV VVVV VVVV (R74, R75, R83) -/

theorem test_decode_tbNow : decode (.command 0b00010000010000000000000000000000#32) = .ok (.tbNow .output) := rfl
theorem test_decode_tbElapsed :
    decode (.command 0b00100000000000001111111111111010#32) = .ok (.tbElapsed .input 0xFFFA#16) := rfl
theorem test_decode_ppmPre : decode (.command 0b00110000000000000000000000000000#32) = .ok .ppmPre := rfl
theorem test_decode_ppmGet : decode (.command 0b01000010100000000000000000000000#32) = .ok (.ppmGet 5#5) := rfl
theorem test_decode_ppmSet :
    decode (.command 0b01010000010000000000001111101000#32) = .ok (.ppmSet 0#5 1000#16 true) := rfl
theorem test_decode_ppmPost : decode (.command 0b01100000000000000000000000000000#32) = .ok .ppmPost := rfl
theorem test_decode_srvPre : decode (.command 0b01110000000000000000000000000000#32) = .ok .srvPre := rfl
theorem test_decode_srvGet : decode (.command 0b10001111100000000000000000000000#32) = .ok (.srvGet 31#5) := rfl
theorem test_decode_srvSet :
    decode (.command 0b10010000110000000000010111011100#32) = .ok (.srvSet 1#5 1500#16 true) := rfl
theorem test_decode_srvPost : decode (.command 0b10100000000000000000000000000000#32) = .ok .srvPost := rfl
theorem test_decode_cfgEnable : decode (.command 0b10110000110000000000000000000000#32) = .ok (.cfgEnable 1#5 true) := rfl
theorem test_decode_events :
    [0x01#8, 0x02#8, 0x03#8, 0x04#8, 0x05#8, 0x06#8, 0x07#8, 0x08#8, 0x09#8].map (fun c => decode (.event c 3)) =
      [.ok .evTickIn, .ok .evTickOut, .ok (.evPin 3), .ok .evEdgeIsr, .ok .evEdgeIsrClr, .ok .evTimerIsr,
        .ok .evDecodeOne, .ok .evDecodeEnd, .ok .evReset] := rfl

/-- X12, X13 and the codes around the events: no instruction. -/
theorem test_decode_illegal_opcodes :
    [0x00000000#32, 0xC0000000#32, 0xF0000000#32].map (fun w => decode (.command w)) =
      [.error .illegalOpcode, .error .illegalOpcode, .error .illegalOpcode] := rfl

/-- X14 to X20: a fixed field is not zero. -/
theorem test_decode_illegal_fields :
    [0x10010000#32, 0x10800000#32, 0x10000001#32, 0x30400000#32, 0x80C00000#32, 0xB0400001#32, 0x90600000#32].map
      (fun w => decode (.command w)) = List.replicate 7 (.error .illegalFixedField) := rfl

theorem test_decode_no_event : decode (.event 0x0A#8 0) = .error (.notAnEvent 0x0A#8) := rfl

theorem test_decodeTableWord :
    decodeTableWord 32 0x904003E8 = some (.srvSet 0#5 1000#16 true) ∧ decodeTableWord 8 3 = some (.evPin 0) ∧
      decodeTableWord 32 0 = none := by decide

/-! ## The host's placing of an instruction: the next step after reset runs it -/

theorem test_withFetchWord_timer :
    (nextOf (step (State.reset.withFetchWord 8 6))).map (fun s => (s.tmr.cmp, s.tmr.flag)) = some (20000#16, false) := by
  decide

theorem test_withFetchWord_decodeOne :
    (nextOf (step (State.reset.withFetchWord 8 7))).map (fun s => s.ring.rd) = some 1 := by decide

/-! ## TimeBase (T1 to T12) -/

theorem test_T1_tickIn_wraps :
    (nextOf (exec .evTickIn { State.reset with tbIn := 0xFFFF#16 })).map State.tbIn = some 0#16 := by decide

theorem test_T2_tickOut_matches :
    (nextOf (exec .evTickOut { State.reset with tmr := { cnt := 999#16, cmp := 1000#16, flag := false, stepIdx := 0 } })).map
      State.tmr = some { cnt := 1000#16, cmp := 1000#16, flag := true, stepIdx := 0 } := by decide

theorem test_T5_tickOut_wraps_without_match :
    (nextOf (exec .evTickOut { State.reset with tmr := { cnt := 0xFFFF#16, cmp := 1000#16, flag := false, stepIdx := 0 } })).map
      State.tmr = some { cnt := 0#16, cmp := 1000#16, flag := false, stepIdx := 0 } := by decide

theorem test_T7_tbNow :
    (nextOf (exec (.tbNow .input) { State.reset with tbIn := 0x1234#16 })).map State.rsp = some 0x80001234#32 := by decide

theorem test_T9_tbElapsed_wraps :
    (nextOf (exec (.tbElapsed .input 0xFFFA#16) { State.reset with tbIn := 5#16 })).map State.rsp =
      some 0x8000000B#32 := by decide

theorem test_T11_tbElapsed_largest :
    (nextOf (exec (.tbElapsed .input 1001#16) { State.reset with tbIn := 1000#16 })).map State.rsp =
      some 0x8000FFFF#32 := by decide

/-! ## Edge capture (E1 to E9) -/

theorem test_E1_pin_monitored :
    (nextOf (exec (.evPin 3) State.reset)).map (fun s => (s.inPort, s.edgeFlag)) = some (3, true) := by decide

theorem test_E2_pin_unmonitored :
    (nextOf (exec (.evPin 5) { State.reset with inPort := 1 })).map (fun s => (s.inPort, s.edgeFlag)) =
      some (5, false) := by decide

theorem test_E4_edge_pushes :
    (nextOf (exec .evEdgeIsr { State.reset with edgeFlag := true, tbIn := 10000#16 })).map
      (fun s => (s.ring.slots[0]?, s.ring.wr, s.edgePhase, s.edgeFlag)) =
      some (some { ts := 10000#16, snap := 0 }, 1, true, true) := by decide

theorem test_E6_edge_drops_when_full :
    (nextOf (exec .evEdgeIsr { State.reset with edgeFlag := true, tbIn := 9#16, ring := { State.reset.ring with wr := 63 } })).map
      (fun s => (s.ring, s.edgePhase)) = some ({ State.reset.ring with wr := 63 }, true) := by decide

theorem test_E5_edge_returns :
    (nextOf (exec .evEdgeIsrClr { State.reset with edgeFlag := true, edgePhase := true })).map
      (fun s => (s.edgeFlag, s.edgePhase)) = some (false, false) := by decide

/-! ## PPM decoder (D1 to D20) -/

/-- A state in a drain with one event in slot 0. -/
def drainOf (ev : EdgeEvent) (ppm : Ppm) : State :=
  { State.reset with decPhase := true, ring := { slots := State.reset.ring.slots.set 0 ev, wr := 1, rd := 0 }, ppm := ppm }

theorem test_D1_stores_a_pulse :
    (nextOf (exec .evDecodeOne (drainOf { ts := 11100#16, snap := 0 }
      { State.reset.ppm with prevLevel := true, lastToggleTime := 10000#16 }))).map State.ppm =
      some { pulseTick := 1100#16 :: List.replicate 7 0#16, index := 1, prevLevel := false, lastToggleTime := 11100#16
             active := true } := by decide

theorem test_D3_sync_gap :
    (nextOf (exec .evDecodeOne (drainOf { ts := 13001#16, snap := 0 }
      { State.reset.ppm with prevLevel := true, lastToggleTime := 10000#16, index := 4 }))).map State.ppm =
      some { State.reset.ppm with lastToggleTime := 13001#16 } := by decide

theorem test_D10_watchdog_clears :
    (nextOf (exec .evDecodeEnd { State.reset with
      decPhase := true, tbIn := 40001#16, ppm := { State.reset.ppm with lastToggleTime := 10000#16, active := true } })).map
      (fun s => (s.ppm.active, s.decPhase)) = some (false, false) := by decide

theorem test_D11_watchdog_at_the_limit :
    (nextOf (exec .evDecodeEnd { State.reset with
      decPhase := true, tbIn := 40000#16, ppm := { State.reset.ppm with lastToggleTime := 10000#16, active := true } })).map
      (fun s => (s.ppm.active, s.decPhase)) = some (true, false) := by decide

theorem test_D15_ppmPre :
    (nextOf (exec .ppmPre State.reset)).map (fun s => (s.decPhase, s.rsp)) = some (true, 0x80000000#32) := by decide

theorem test_D16_ppmGet :
    (nextOf (exec (.ppmGet 5#5) { State.reset with
      ppm := { State.reset.ppm with pulseTick := State.reset.ppm.pulseTick.set 5 1600#16, active := true } })).map State.rsp =
      some 0x80010640#32 := by decide

theorem test_D18_ppmGet_out_of_range :
    (nextOf (exec (.ppmGet 8#5) { State.reset with rsp := 1#32 })).map State.rsp = some 0#32 := by decide

theorem test_D19_ppmSet :
    (nextOf (exec (.ppmSet 0#5 1000#16 true) { State.reset with rsp := 1#32 })) = some State.reset := by decide

theorem test_D20_ppmPost : (nextOf (exec .ppmPost State.reset)).map State.rsp = some 0x80000000#32 := by decide

/-! ## Servo channels and the builder (S1 to S12, B1 to B8) -/

theorem test_S1_srvSet_clamps_up :
    (nextOf (exec (.srvSet 0#5 100#16 true) State.reset)).map (fun s => (s.srv[0]?, s.rsp)) =
      some (some { enabled := false, active := true, timerValue := 500#16 }, 0x80000000#32) := by decide

theorem test_S2_srvSet_clamps_down :
    (nextOf (exec (.srvSet 0#5 3000#16 true) State.reset)).map (fun s => (servoAt s.srv 0).timerValue) =
      some 2500#16 := by decide

theorem test_S6_srvGet :
    (nextOf (exec (.srvGet 1#5) { State.reset with
      srv := State.reset.srv.set 1 { enabled := false, active := true, timerValue := 1500#16 } })).map State.rsp =
      some 0x800105DC#32 := by decide

theorem test_S7_srvGet_out_of_range :
    (nextOf (exec (.srvGet 31#5) { State.reset with rsp := 1#32 })).map State.rsp = some 0#32 := by decide

theorem test_S8_cfgEnable :
    (nextOf (exec (.cfgEnable 0#5 true) State.reset)).map (fun s => (servoAt s.srv 0).enabled) = some true := by decide

theorem test_S9_cfgEnable_out_of_range :
    nextOf (exec (.cfgEnable 30#5 true) { State.reset with rsp := 1#32 }) = some State.reset := by decide

theorem test_S10_srvPre : (nextOf (exec .srvPre State.reset)).map State.rsp = some 0x80000000#32 := by decide

/-- Channels that are enabled and active with these widths. -/
def servos (ws : List Nat) : List Servo :=
  ws.map (fun w => { enabled := true, active := true, timerValue := BitVec.ofNat 16 w })

theorem test_B2_scenario_A :
    scheduleSteps Config.test (servos [1000, 1500]) =
      [{ mask := 0x3, ticks := 1000#16 }, { mask := 0x1, ticks := 500#16 }, { mask := 0x2, ticks := 18500#16 }] ∧
    scheduleDrive Config.test (servos [1000, 1500]) = 0x3 := by decide

theorem test_B3_one_lane :
    scheduleSteps { Config.test with kLanes := 1 } (servos [1000, 1500]) =
      [{ mask := 0x1, ticks := 1000#16 }, { mask := 0x3, ticks := 1500#16 }, { mask := 0x2, ticks := 17500#16 }] := by
  decide

theorem test_B6_lane_chain :
    scheduleSteps Config.test (servos [1000, 1500, 1000, 2000, 1200, 500]) =
      [{ mask := 0x1F, ticks := 1000#16 }, { mask := 0x25, ticks := 200#16 }, { mask := 0x10, ticks := 300#16 },
        { mask := 0x22, ticks := 500#16 }, { mask := 0x8, ticks := 18000#16 }] := by decide

theorem test_B8_all_channels :
    scheduleSteps Config.test (servos (List.replicate 24 2500)) =
      [{ mask := 0x1F, ticks := 2500#16 }, { mask := 0x3FF, ticks := 2500#16 }, { mask := 0x7FE0, ticks := 2500#16 },
        { mask := 0xFFC00, ticks := 2500#16 }, { mask := 0xFF8000, ticks := 2500#16 },
        { mask := 0xF00000, ticks := 7500#16 }] := by decide

/-- The configuration of scenario A: channels 0 and 1 on, the others as after reset. -/
def scenarioA : List Servo := servos [1000, 1500] ++ State.reset.srv.drop 2

/-- Scenario A published (P1 line 5). -/
def published : State :=
  { State.reset with
    srv := scenarioA
    sched := State.reset.sched.publish (scheduleSteps Config.test scenarioA) (scheduleDrive Config.test scenarioA) }

theorem test_S11_srvPost_publishes :
    (nextOf (exec .srvPost { State.reset with srv := scenarioA })).map (fun s => (s.sched, s.rsp)) =
      some (published.sched, 0x80000000#32) := by decide

theorem test_S12_srvPost_busy : (nextOf (exec .srvPost published)).map State.rsp = some 0#32 := by decide

/-- Scenario A current in buffer 1, at step `k` with its firing due. -/
def running (k : Nat) (out : PortMask) : State :=
  { published with
    outPort := out
    tmr := { cnt := 7#16, cmp := 7#16, flag := true, stepIdx := k }
    sched := { published.sched with cur := true, nextPending := false } }

theorem test_S13_first_step :
    (nextOf (exec .evTimerIsr (running 0 0))).map (fun s => (s.tmr, s.outPort)) =
      some ({ cnt := 0#16, cmp := 1000#16, flag := false, stepIdx := 1 }, 0x3) := by decide

theorem test_S16_swap :
    (nextOf (exec .evTimerIsr { published with tmr := { published.tmr with flag := true } })).map
      (fun s => (s.tmr.cmp, s.outPort, s.sched.cur, s.sched.nextPending, s.outDrive)) =
      some (20000#16, 0, true, false, 0x3) := by decide

/-! ## Runs: the trace (R158), the environment going on (R160), a command waiting for a drain (U23) -/

/-- Two equal answers are two; the swap drives the pins one output tick after the start (P1). -/
theorem test_trace_of_a_run :
    let tr := traceRun 5 { State.reset with
      srv := scenarioA
      offers := [.command 0xA0000000#32, .command 0x10000000#32, .command 0x10000000#32, .event 2#8 0, .event 6#8 0] }
      Trace.start
    tr.responses = [0x80000000#32, 0x80000000#32, 0x80000000#32] ∧ tr.changes = [(1, 0, 3)] := by decide

/-- Nothing is placed: the ticks come, and the idle schedule fires on the first output tick (70_reset_and_hazards.md
R163). -/
theorem test_reset_keeps_ticking :
    (movesRun 5 State.reset) = [.event 1#8 0, .event 2#8 0, .event 6#8 0] := by decide

/-- `SRV_PRE` of a `PRE` line waits for the drain and answers. -/
theorem test_pre_waits_for_its_drain :
    (nextOf (runMacro .pre { State.reset with rsp := 1#32 })).map (fun s => (s.rsp, s.decPhase)) =
      some (0x80000000#32, false) := by decide

/-! ## Reset (Z1 to Z5) -/

theorem test_Z2_reset_lowers_the_outputs :
    (nextOf (exec .evReset (running 1 0x3))).map (fun s => (s.outPort, s.outDrive, s.tmr, s.sched.cur)) =
      some (0, 0, { cnt := 0#16, cmp := 1#16, flag := false, stepIdx := 0 }, false) := by decide

theorem test_Z4_Z5_failed_checks :
    failedCheck { Config.test with refreshPeriod := 12500 } = some .wfPeriod ∧
      failedCheck { Config.test with pinMasks := Config.test.pinMasks.set 3 16 } = some .wfPins := by decide

theorem test_admitted : Admitted Config.test := by decide

/-! ## Witnesses: a state and operands that meet the hypotheses of each statement that has some, clause by clause -/

/-- The state after reset with these offers. -/
def offering (os : List Offer) : State := { State.reset with offers := os }

/-- The state after reset with the output counter at 0 and this compare value. -/
def comparing (d : Tick) : State := { State.reset with tmr := { cnt := 0#16, cmp := d, flag := false, stepIdx := 0 } }

/-- A ring whose 63 slots in use are 0 to 62: full. -/
def fullRing : Ring := { State.reset.ring with wr := 63 }

/-- `PPM` in a high phase since tick 10000, at this frame cursor. -/
def measuring (index : Nat) : Ppm :=
  { State.reset.ppm with prevLevel := true, lastToggleTime := 10000#16, index := index }

theorem witness_EncodeOfDecodeIsTheWord : decode (.command 0x9FC0FFFF#32) = .ok (.srvSet 31#5 0xFFFF#16 true) := rfl

theorem witness_EventCodesAreOneToNine :
    ((0#8).toNat = 0 ∧ decode (.event 0#8 0) = .error (.notAnEvent 0#8)) ∧
      (9 < (10#8).toNat ∧ decode (.event 10#8 0) = .error (.notAnEvent 10#8)) ∧
      9 < (255#8).toNat ∧ decode (.event 255#8 0) = .error (.notAnEvent 255#8) := by decide

theorem witness_StepRunsTheDecodedOffer :
    (offering [.command 0x10000000#32, .event 1#8 0]).offers = .command 0x10000000#32 :: [.event 1#8 0] ∧
      decode (.command 0x10000000#32) = .ok (.tbNow .input) ∧
      enabled (.tbNow .input) (offering [.command 0x10000000#32, .event 1#8 0]) = true := by decide

theorem zero_word_is_illegal : ¬ ∃ i, decode (.command 0#32) = .ok i := by
  rintro ⟨i, h⟩
  rw [show decode (.command 0#32) = .error .illegalOpcode from rfl] at h
  cases h

theorem fixed_field_word_is_illegal : ¬ ∃ i, decode (.command 0x10010000#32) = .ok i := by
  rintro ⟨i, h⟩
  rw [show decode (.command 0x10010000#32) = .error .illegalFixedField from rfl] at h
  cases h

theorem witness_StepOnAnIllegalWordWritesOnlyRsp :
    ((offering [.command 0#32]).offers = .command 0#32 :: [] ∧ (offering [.command 0#32]).decPhase = false ∧
      (offering [.command 0#32]).edgePhase = false) ∧ (¬ ∃ i, decode (.command 0#32) = .ok i) ∧
      ¬ ∃ i, decode (.command 0x10010000#32) = .ok i :=
  ⟨by decide, zero_word_is_illegal, fixed_field_word_is_illegal⟩

/-- A waiting firing, a waiting illegal word and a waiting command before a tick. -/
theorem witness_StepTakesTheFirstEnabledOffer :
    let pre : List Offer := [.event 6#8 0, .command 0#32, .command 0x10000000#32]
    let s : State := { offering (pre ++ .event 1#8 0 :: [.event 2#8 0]) with decPhase := true }
    s.offers = pre ++ .event 1#8 0 :: [.event 2#8 0] ∧ (∀ p ∈ pre, s.Waits p) ∧
      decode (.event 1#8 0) = .ok .evTickIn ∧ enabled .evTickIn s = true := by
  refine ⟨rfl, ?_, rfl, rfl⟩
  intro p hp
  simp only [List.mem_cons, List.not_mem_nil, or_false] at hp
  rcases hp with rfl | rfl | rfl
  · exact .inl ⟨.evTimerIsr, rfl, rfl⟩
  · exact .inr ⟨0#32, rfl, zero_word_is_illegal, .inl rfl⟩
  · exact .inl ⟨.tbNow .input, rfl, rfl⟩

/-- A command and an illegal word wait in a drain and between the edge handler's steps. -/
theorem blocked_offers_wait {s : State} (h : s.decPhase = true ∨ s.edgePhase = true) :
    ∀ p ∈ [Offer.command 0x10000000#32, .command 0#32], s.Waits p := by
  intro p hp
  simp only [List.mem_cons, List.not_mem_nil, or_false] at hp
  rcases hp with rfl | rfl
  · exact .inl ⟨.tbNow .input, rfl, by rcases h with h | h <;> simp [enabled, taskReady, h]⟩
  · exact .inr ⟨0#32, rfl, zero_word_is_illegal, h⟩

/-- A state for each clause: with waiting offers in the first five, with none in the last. -/
theorem witness_StepServesPendingWorkByPriority :
    let os : List Offer := [.command 0x10000000#32, .command 0#32]
    let drain : State := { offering os with decPhase := true }
    let returning : State := { offering os with edgePhase := true }
    ((∀ p ∈ drain.offers, drain.Waits p) ∧ ∀ p ∈ returning.offers, returning.Waits p) ∧
    { drain with tmr := { drain.tmr with flag := true } }.tmr.flag = true ∧
    (returning.tmr.flag = false ∧ returning.edgePhase = true) ∧
    (drain.tmr.flag = false ∧ drain.edgePhase = false ∧ { drain with edgeFlag := true }.edgeFlag = true) ∧
    (drain.edgeFlag = false ∧ { drain with ring := fullRing }.ring.rd ≠ { drain with ring := fullRing }.ring.wr) ∧
    drain.ring.rd = drain.ring.wr ∧
    (State.reset.offers = [] ∧ State.reset.tmr.flag = false ∧ State.reset.edgePhase = false ∧
      State.reset.edgeFlag = false ∧ State.reset.decPhase = false) :=
  ⟨⟨blocked_offers_wait (.inl rfl), blocked_offers_wait (.inr rfl)⟩, by decide⟩

theorem reset_offer_of_agents : OffersOfAgents [.event 9#8 0] := by
  intro o ho c h
  rw [List.mem_singleton.mp ho, show decode (.event 9#8 0) = .ok .evReset from rfl] at h
  cases h

theorem ticks_of_agents : OffersOfAgents ticking := by
  intro o ho c h
  simp only [ticking, List.mem_cons, List.not_mem_nil, or_false] at ho
  rcases ho with rfl | rfl
  · rw [show decode (.event 1#8 0) = .ok .evTickIn from rfl] at h; cases h
  · rw [show decode (.event 2#8 0) = .ok .evTickOut from rfl] at h; cases h

theorem witness_NoStepEverStops :
    Admitted (offering [.event 9#8 0]).cfg ∧ OffersOfAgents (offering [.event 9#8 0]).offers :=
  ⟨test_admitted, reset_offer_of_agents⟩

theorem witness_DisabledStepsChangeNothing :
    enabled .evTimerIsr State.reset = false ∧ enabled (.tbNow .input) { State.reset with edgePhase := true } = false ∧
      encode (.srvSet 31#5 0xFFFF#16 true) = .command 0x9FC0FFFF#32 ∧ encode (.tbNow .input) = .command 0x10000000#32 := by
  decide

theorem witness_a_command_may_run_after_reset : State.reset.decPhase = false ∧ State.reset.edgePhase = false := by decide

theorem witness_TbNowReadsTheSelectedCounter :
    0x10400000#32 &&& 0xFFBFFFFF#32 = 0x10000000#32 ∧ 0x10000000#32 &&& 0xFFBFFFFF#32 = 0x10000000#32 := by decide

theorem witness_TbElapsedIsTheWraparoundDelta :
    0x2040FFFF#32 &&& 0xFFBF0000#32 = 0x20000000#32 ∧ 0x20000000#32 &&& 0xFFBF0000#32 = 0x20000000#32 := by decide

theorem witness_CompareMatchesOnExactlyTheDthTick :
    ((comparing 1#16).tmr.cnt = 0#16 ∧ (comparing 1#16).tmr.flag = false ∧ (comparing 1#16).tmr.cmp.toNat = 1) ∧
      (comparing 65535#16).tmr.cnt = 0#16 ∧ (comparing 65535#16).tmr.flag = false ∧
      (comparing 65535#16).tmr.cmp.toNat = 65535 := by decide

theorem witness_PinSetsTheEdgeFlagOnAMonitoredChange :
    Instr.wf State.reset.cfg.portW (.evPin 0) = true ∧ Instr.wf State.reset.cfg.portW (.evPin (2 ^ 32 - 1)) = true := by
  decide

theorem witness_EdgeHandlerPushesOrDrops :
    { State.reset with edgeFlag := true, ring := fullRing }.edgeFlag = true ∧ State.reset.edgePhase = false ∧
      (fullRing.wr + 1) % State.reset.cfg.ringCap = fullRing.rd ∧
      (State.reset.ring.wr + 1) % State.reset.cfg.ringCap ≠ State.reset.ring.rd := by decide

theorem witness_EdgeHandlerReturnsWithTheFlagClear : { State.reset with edgePhase := true }.edgePhase = true := rfl

theorem witness_EdgeBetweenPushAndClearIsLost :
    { State.reset with edgeFlag := true }.edgeFlag = true ∧ State.reset.edgePhase = false ∧
      1 < 2 ^ State.reset.cfg.portW := by decide

/-- An empty ring, a full one, and one whose oldest event a drain may take. -/
theorem witness_RingIsAFirstInFirstOutQueue :
    State.reset.ring.Fits State.reset.cfg ∧ fullRing.Fits State.reset.cfg ∧
      (fullRing.events State.reset.cfg.ringCap).length = State.reset.cfg.ringCap - 1 ∧
      (drainOf { ts := 5#16, snap := 1 } State.reset.ppm).ring.events State.reset.cfg.ringCap =
        { ts := 5#16, snap := 1 } :: [] ∧
      (drainOf { ts := 5#16, snap := 1 } State.reset.ppm).decPhase = true ∧
      (drainOf { ts := 5#16, snap := 1 } State.reset.ppm).edgePhase = false := by decide

theorem witness_DecodeOneDecodesTheOldestEvent :
    let s := fun (ev : EdgeEvent) (ppm : Ppm) => drainOf ev ppm
    (∀ ev ∈ [({ ts := 13000#16, snap := 0 } : EdgeEvent)], ∀ ppm ∈ [measuring 7, measuring 8],
      (s ev ppm).decPhase = true ∧ (s ev ppm).edgePhase = false ∧ (s ev ppm).ring.rd ≠ (s ev ppm).ring.wr ∧
      (s ev ppm).ring.slots[(s ev ppm).ring.rd]? = some ev) ∧
    (((1 : Nat) &&& State.reset.cfg.ppmMask ≠ 0) ↔ (measuring 0).prevLevel = true) ∧
    ((1 : Nat) &&& State.reset.cfg.ppmMask ≠ 0 ∧ State.reset.ppm.prevLevel = false) ∧
    (¬ (2 : Nat) &&& State.reset.cfg.ppmMask ≠ 0) ∧
    State.reset.cfg.frameSyncThreshold < (13001#16 - (measuring 0).lastToggleTime).toNat ∧
    (13000#16 - (measuring 0).lastToggleTime).toNat ≤ State.reset.cfg.frameSyncThreshold ∧
    (measuring 7).index < State.reset.cfg.nPpm ∧ State.reset.cfg.nPpm ≤ (measuring 8).index := by decide

theorem witness_DecodeEndRunsTheWatchdog :
    { State.reset with decPhase := true }.decPhase = true ∧ State.reset.ring.rd = State.reset.ring.wr ∧
      State.reset.edgePhase = false := by decide

theorem witness_PpmGetReadsOneChannel :
    ((7#5).toNat < State.reset.cfg.nPpm ∧ State.reset.ppm.pulseTick[(7#5).toNat]? = some 0#16) ∧
      State.reset.cfg.nPpm ≤ (8#5).toNat := by decide

/-- `active` set by a pulse, and cleared by the watchdog. -/
theorem witness_OnlyAChannelPulseSetsActive :
    (∃ t, exec .evDecodeOne (drainOf { ts := 13000#16, snap := 0 } (measuring 7)) = .next t ∧
      t.ppm.active ≠ (measuring 7).active ∧ t.ppm.active = true) ∧
    ∃ t, exec .evDecodeEnd { State.reset with
        decPhase := true, tbIn := 40001#16, ppm := { measuring 0 with active := true } } = .next t ∧
      t.ppm.active ≠ true ∧ t.ppm.active = false :=
  ⟨⟨_, rfl, by decide, by decide⟩, ⟨_, rfl, by decide, by decide⟩⟩

/-- Snapshots 2 and 0 differ in an unmonitored bit only. -/
theorem witness_UnmonitoredPinsNeverReachTheDecoder :
    (drainOf { ts := 13000#16, snap := 2 } (measuring 0)).ring.slots.map
        (fun ev => (ev.ts, ev.snap &&& State.reset.cfg.ppmMask)) =
      (drainOf { ts := 13000#16, snap := 0 } (measuring 0)).ring.slots.map
        (fun ev => (ev.ts, ev.snap &&& State.reset.cfg.ppmMask)) ∧
    (∃ t, exec .evDecodeOne (drainOf { ts := 13000#16, snap := 0 } (measuring 0)) = .next t) ∧
    ∃ u, exec .evDecodeOne (drainOf { ts := 13000#16, snap := 2 } (measuring 0)) = .next u :=
  ⟨by decide, ⟨_, rfl⟩, ⟨_, rfl⟩⟩

/-- A drain with nothing offered, and one with the ticks going on. -/
theorem witness_DrainEndsWhenNoEdgesArrive :
    let s := { drainOf { ts := 13000#16, snap := 0 } (measuring 0) with cycle := [] }
    let u := drainOf { ts := 13000#16, snap := 0 } (measuring 0)
    (s.ring.Fits s.cfg ∧ s.decPhase = true ∧ s.edgePhase = false ∧ s.edgeFlag = false ∧ s.tmr.flag = false ∧
      s.offers = [] ∧ s.cycle = []) ∧
    (Admitted u.cfg ∧ u.ring.Fits u.cfg ∧ u.decPhase = true) ∧ OffersOfAgents (u.offers ++ u.cycle) ∧
    ∀ o ∈ u.offers ++ u.cycle, ∀ p, decode o ≠ .ok (.evPin p) := by
  refine ⟨by decide, ⟨test_admitted, by decide⟩, ticks_of_agents, ?_⟩
  intro o ho p h
  have ho : o ∈ ticking := ho
  simp only [ticking, List.mem_cons, List.not_mem_nil, or_false] at ho
  rcases ho with rfl | rfl
  · rw [show decode (.event 1#8 0) = .ok .evTickIn from rfl] at h; cases h
  · rw [show decode (.event 2#8 0) = .ok .evTickOut from rfl] at h; cases h

/-- A firing and an edge are pending, and the ticks go on. -/
theorem witness_HandlersRunAndTicksKeepTicking :
    let s := { running 0 0 with edgeFlag := true }
    let u := { running 0 0 with edgePhase := true }
    Admitted s.cfg ∧ OffersOfAgents (s.offers ++ s.cycle) ∧ (s.tmr.flag = true ∧ s.edgeFlag = true) ∧
      OffersOfAgents (u.offers ++ u.cycle) ∧ u.edgePhase = true ∧
      ∃ o ∈ s.cycle, ∃ i, decode o = .ok i ∧ ∀ v, enabled i v = true :=
  ⟨test_admitted, ticks_of_agents, by decide, ticks_of_agents, rfl, .event 2#8 0, by decide, .evTickOut, rfl, fun _ => rfl⟩

theorem witness_TraceAgreesWithTheRun :
    ∃ t, Host.Core.run Sys2Proof.core 3 (offering [.command 0x10000000#32, .event 2#8 0, .event 6#8 0]) = .next t :=
  ⟨_, rfl⟩

theorem witness_SrvSetClampsAndStores :
    0x9BC007D0#32 &&& 0xF03F0000#32 = 0x90000000#32 ∧ State.reset.srv.length = State.reset.cfg.nServo ∧
      (23#5).toNat < State.reset.cfg.nServo ∧ State.reset.cfg.nServo ≤ (24#5).toNat := by decide

theorem witness_SrvGetReadsOneChannel :
    ((23#5).toNat < State.reset.cfg.nServo ∧
      State.reset.srv[(23#5).toNat]? = some { enabled := false, active := false, timerValue := 500#16 }) ∧
      State.reset.cfg.nServo ≤ (24#5).toNat := by decide

theorem witness_CfgEnableWritesOneFlag :
    State.reset.srv.length = State.reset.cfg.nServo ∧ (23#5).toNat < State.reset.cfg.nServo ∧
      State.reset.cfg.nServo ≤ (24#5).toNat := by decide

theorem witness_ReadCommandsAreRepeatable :
    (∃ t, exec (.tbNow .output) State.reset = .next t) ∧ (∃ t, exec (.tbElapsed .input 1#16) State.reset = .next t) ∧
      (∃ t, exec (.ppmGet 8#5) State.reset = .next t) ∧ ∃ t, exec (.srvGet 23#5) State.reset = .next t :=
  ⟨⟨_, rfl⟩, ⟨_, rfl⟩, ⟨_, rfl⟩, ⟨_, rfl⟩⟩

/-- Two channels dealt, 0 and 1; channel 2 is not. -/
theorem witness_BuiltScheduleFillsTheRefreshPeriod :
    Admitted Config.test ∧ scenarioA.length = Config.test.nServo ∧ ∀ x ∈ scenarioA, x.InBounds Config.test := by decide

theorem witness_EachDealtChannelPulsesForItsWidth :
    (Admitted Config.test ∧ scenarioA.length = Config.test.nServo ∧ ∀ x ∈ scenarioA, x.InBounds Config.test) ∧
      (dealtChannels Config.test scenarioA)[1]? = some 1 ∧ 2 < Config.test.nServo ∧
      2 ∉ dealtChannels Config.test scenarioA := by decide

theorem witness_DriveMaskHoldsTheEnabledPins : Admitted Config.test ∧ 23 < Config.test.nServo := by decide

theorem witness_PublishDependsOnlyOnTheConfiguration :
    let s := { State.reset with srv := scenarioA }
    let s' := { running 1 3 with srv := scenarioA, tbIn := 9#16 }
    (s.cfg = s'.cfg ∧ s.srv = s'.srv ∧ s.sched.nextPending = false ∧ s'.sched.nextPending = false ∧
      taskReady s = true ∧ taskReady s' = true) ∧
      (∃ t, exec .srvPost s = .next t) ∧ ∃ t, exec .srvPost s' = .next t :=
  ⟨by decide, ⟨_, rfl⟩, ⟨_, rfl⟩⟩

theorem witness_SrvPostPublishesOrFails :
    (published.decPhase = false ∧ published.edgePhase = false ∧ published.sched.nextPending = true) ∧
      State.reset.sched.nextPending = false := by decide

/-- The last step with a published schedule: the idle schedule of `published`, whose firing is due. -/
def swapDue : State := { published with tmr := { published.tmr with flag := true } }

theorem witness_TimerHandlerFiresOneStep :
    ((running 0 0).tmr.flag = true ∧
      (running 0 0).sched.current.steps[(running 0 0).tmr.stepIdx]? = some { mask := 3, ticks := 1000#16 } ∧
      (running 0 0).tmr.stepIdx + 1 ≠ (running 0 0).sched.current.len) ∧
    ((running 2 2).tmr.flag = true ∧
      (running 2 2).sched.current.steps[(running 2 2).tmr.stepIdx]? = some { mask := 2, ticks := 18500#16 } ∧
      (running 2 2).tmr.stepIdx + 1 = (running 2 2).sched.current.len ∧ (running 2 2).sched.nextPending = false) ∧
    swapDue.tmr.flag = true ∧
      swapDue.sched.current.steps[swapDue.tmr.stepIdx]? = some { mask := 0, ticks := 20000#16 } ∧
      swapDue.tmr.stepIdx + 1 = swapDue.sched.current.len ∧ swapDue.sched.nextPending = true := by decide

theorem witness_CurrentScheduleIsNeverAltered :
    ∃ t, exec .evTimerIsr swapDue = .next t ∧ t.sched.cur ≠ swapDue.sched.cur ∧ swapDue.sched.nextPending = true :=
  ⟨_, rfl, by decide, by decide⟩

/-- `running` meets the invariants: step 0 with the pins low, and the last step with pin 1 still high. -/
theorem running_inv (k : Nat) (out : PortMask) (hk : k < 3) (ho : out < 2 ^ 32) : (running k out).Inv where
  admitted := test_admitted
  inPort := (by decide : (running 0 0).inPort < 2 ^ 32)
  outPort := ho
  outDrive := (by decide : (running 0 0).outDrive < 2 ^ 32)
  ring := (by decide : (running 0 0).ring.Fits Config.test)
  ppm := (by decide : (running 0 0).ppm.pulseTick.length = 8 ∧ (running 0 0).ppm.index ≤ 8)
  srv := (by decide : (running 0 0).srv.length = 24 ∧ ∀ x ∈ (running 0 0).srv, x.InBounds Config.test)
  buffers := (by decide : (running 0 0).sched.buf0.Fits Config.test ∧ (running 0 0).sched.buf1.Fits Config.test)
  current := (by decide : (running 0 0).sched.current.Runnable Config.test)
  published := fun h => Bool.noConfusion h
  stepIdx := hk
  compare := (by decide : (running 0 0).tmr.cmp ≠ 0#16)

theorem running_first_outInv : (running 0 0).OutInv where
  latch := by decide
  current := by decide
  published := by decide

theorem running_last_outInv : (running 2 2).OutInv where
  latch := by decide
  current := by decide
  published := by decide

theorem witness_DisabledChannelLeavesThePublishedSchedule :
    (running 1 3).Inv ∧ (23#5).toNat < (running 1 3).cfg.nServo ∧ (running 1 3).decPhase = false ∧
      (running 1 3).edgePhase = false ∧ (running 1 3).sched.nextPending = false :=
  ⟨running_inv 1 3 (by decide) (by decide), by decide⟩

theorem witness_WaveformOfABuiltSchedule :
    ((running 0 0).Inv ∧ (running 0 0).OutInv) ∧ (running 0 0).tmr.flag = true ∧ (running 0 0).tmr.stepIdx = 0 ∧
      scenarioA.length = (running 0 0).cfg.nServo ∧ (∀ x ∈ scenarioA, x.InBounds (running 0 0).cfg) ∧
      (running 0 0).sched.current.len = (scheduleSteps (running 0 0).cfg scenarioA).length ∧
      (running 0 0).sched.current.steps.take (running 0 0).sched.current.len =
        scheduleSteps (running 0 0).cfg scenarioA ∧
      1 < (running 0 0).cfg.nServo ∧ 19999 < (running 0 0).cfg.refreshPeriod :=
  ⟨⟨running_inv 0 0 (by decide) (by decide), running_first_outInv⟩, by decide⟩

theorem witness_SchedulePeriodIsTheRefreshPeriod :
    ((running 0 0).Inv ∧ (running 0 0).OutInv) ∧ (running 0 0).tmr.flag = true ∧ (running 0 0).tmr.stepIdx = 0 ∧
      totalTicks ((running 0 0).sched.current.steps.take (running 0 0).sched.current.len) =
        (running 0 0).cfg.refreshPeriod :=
  ⟨⟨running_inv 0 0 (by decide) (by decide), running_first_outInv⟩, by decide⟩

theorem witness_ResetLeavesTheTabulatedValues : Admitted (running 1 3).cfg := test_admitted

theorem witness_ResetRefusesAFailedCheckByName : ¬ Admitted { Config.test with refreshPeriod := 12500 } := by decide

theorem witness_InvariantsHoldAfterReset : Admitted Config.test ∧ 2 ^ 32 - 1 < 2 ^ Config.test.portW := by decide

theorem witness_EveryStepKeepsTheInvariants :
    (running 0 0).Inv ∧ ∃ t, step (running 0 0) = .next t :=
  ⟨running_inv 0 0 (by decide) (by decide), ⟨_, rfl⟩⟩

theorem witness_EveryStepKeepsTheLatchInvariant :
    (running 2 2).Inv ∧ (running 2 2).OutInv ∧ ∃ t, step (running 2 2) = .next t :=
  ⟨running_inv 2 2 (by decide) (by decide), running_last_outInv, ⟨_, rfl⟩⟩

theorem witness_LatchIsLowAtTheEndOfASchedule :
    (running 2 2).Inv ∧ (running 2 2).OutInv ∧ (running 2 2).tmr.flag = true ∧
      (running 2 2).tmr.stepIdx + 1 = (running 2 2).sched.current.len ∧
      ∃ t, exec .evTimerIsr (running 2 2) = .next t :=
  ⟨running_inv 2 2 (by decide) (by decide), running_last_outInv, by decide, by decide, ⟨_, rfl⟩⟩

theorem witness_NoStepWritesTheConfiguration : ∃ t, step (offering [.event 9#8 0]) = .next t := ⟨_, rfl⟩

/-- One change of each kind the statement speaks of. -/
theorem witness_EachElementHasItsWriters :
    (∃ t, exec (.evPin 1) State.reset = .next t ∧ t.inPort ≠ 0 ∧ t.edgeFlag ≠ false) ∧
    (∃ t, exec .evTickIn State.reset = .next t ∧ t.tbIn ≠ 0#16) ∧
    (∃ t, exec .evTickOut State.reset = .next t ∧ t.tmr.cnt ≠ 0#16 ∧ t.tmr.flag ≠ false) ∧
    (∃ t, exec .evTimerIsr swapDue = .next t ∧ t.tmr.cmp ≠ swapDue.tmr.cmp ∧ t.sched.cur ≠ swapDue.sched.cur ∧
      t.sched.nextPending ≠ swapDue.sched.nextPending ∧ t.outDrive ≠ swapDue.outDrive) ∧
    (∃ t, exec .evTimerIsr (running 0 0) = .next t ∧ t.outPort ≠ 0 ∧ t.tmr.stepIdx ≠ 0) ∧
    (∃ t, exec .srvPost { State.reset with srv := scenarioA } = .next t ∧
      t.sched.buffer true ≠ State.reset.sched.standby ∧ t.rsp ≠ 0#32) ∧
    (∃ t, exec .evEdgeIsr { State.reset with edgeFlag := true, inPort := 1 } = .next t ∧
      t.ring.slots ≠ State.reset.ring.slots ∧ t.ring.wr ≠ 0 ∧ t.edgePhase ≠ false) ∧
    (∃ t, exec .evEdgeIsrClr { State.reset with edgePhase := true, edgeFlag := true } = .next t ∧ t.edgeFlag ≠ true) ∧
    (∃ t, exec .evDecodeOne (drainOf { ts := 13000#16, snap := 0 } (measuring 7)) = .next t ∧ t.ring.rd ≠ 0 ∧
      t.ppm ≠ measuring 7) ∧
    (∃ t, exec .ppmPre State.reset = .next t ∧ t.decPhase ≠ false) ∧
    ∃ t, exec (.cfgEnable 0#5 true) State.reset = .next t ∧ t.srv ≠ State.reset.srv :=
  ⟨⟨_, rfl, by decide⟩, ⟨_, rfl, by decide⟩, ⟨_, rfl, by decide⟩, ⟨_, rfl, by decide⟩, ⟨_, rfl, by decide⟩,
    ⟨_, rfl, by decide⟩, ⟨_, rfl, by decide⟩, ⟨_, rfl, by decide⟩, ⟨_, rfl, by decide⟩, ⟨_, rfl, by decide⟩,
    ⟨_, rfl, by decide⟩⟩

/-- An illegal word, a condition, and neither. -/
theorem witness_ResultWordReportsTheCondition :
    (State.reset.decPhase = false ∧ State.reset.edgePhase = false) ∧
      [0#32, 0xBC000000#32, 0x50000000#32, 0x30000000#32].map (fun w => offerCondition (.command w) State.reset) =
        [some .illegal, some .range, none, none] := by decide

end Sys2Proof.Tests
end

section
/-! What each instruction but reset can do to the state, guards included, and the frame of the shared schedule
operations. -/

namespace Sys2Proof.Machine

/-! ## The schedule operations, element by element -/

@[simp] theorem Sched.buffer_cur (d : Sched) : d.buffer d.cur = d.current := rfl

@[simp] theorem Sched.buffer_not_cur (d : Sched) : d.buffer (!d.cur) = d.standby := rfl

@[simp] theorem Sched.publish_cur (d : Sched) (st : List PulseStep) (m : PortMask) : (d.publish st m).cur = d.cur :=
  Sched.setBuffer_cur ..

@[simp] theorem Sched.publish_nextPending (d : Sched) (st : List PulseStep) (m : PortMask) :
    (d.publish st m).nextPending = true := rfl

/-- A publish writes the standby buffer, so the engine's buffer is as it was (44_servo_output.md R127). -/
@[simp] theorem Sched.publish_buffer_cur (d : Sched) (st : List PulseStep) (m : PortMask) :
    (d.publish st m).buffer d.cur = d.current :=
  Sched.setBuffer_other ..

/-- A swap exchanges the roles of the buffers, not their contents (44_servo_output.md R130). -/
@[simp] theorem Sched.swap_buffer (d : Sched) (b : Bool) : d.swap.buffer b = d.buffer b := by
  unfold Sched.swap; split <;> rfl

@[simp] theorem Sched.swap_nextPending (d : Sched) : d.swap.nextPending = false := by
  unfold Sched.swap; split
  · rfl
  next h => exact eq_false_of_ne_true h

/-! ## The firing, element by element -/

section fire
variable (s : State)
@[simp] theorem fire_cfg : (fire s).cfg = s.cfg := rfl
@[simp] theorem fire_inPort : (fire s).inPort = s.inPort := rfl
@[simp] theorem fire_tbIn : (fire s).tbIn = s.tbIn := rfl
@[simp] theorem fire_edgeFlag : (fire s).edgeFlag = s.edgeFlag := rfl
@[simp] theorem fire_edgePhase : (fire s).edgePhase = s.edgePhase := rfl
@[simp] theorem fire_decPhase : (fire s).decPhase = s.decPhase := rfl
@[simp] theorem fire_ring : (fire s).ring = s.ring := rfl
@[simp] theorem fire_ppm : (fire s).ppm = s.ppm := rfl
@[simp] theorem fire_srv : (fire s).srv = s.srv := rfl
@[simp] theorem fire_rsp : (fire s).rsp = s.rsp := rfl
@[simp] theorem fire_offers : (fire s).offers = s.offers := rfl
@[simp] theorem fire_cycle : (fire s).cycle = s.cycle := rfl
@[simp] theorem fire_draws : (fire s).draws = s.draws := rfl
@[simp] theorem fire_flag : (fire s).tmr.flag = false := rfl

theorem fire_sched : (fire s).sched = if atLastStep s then s.sched.swap else s.sched := rfl

/-- A firing writes no buffer (44_servo_output.md R130). -/
@[simp] theorem fire_buffer (b : Bool) : (fire s).sched.buffer b = s.sched.buffer b := by
  rw [fire_sched]; split
  · exact Sched.swap_buffer ..
  · rfl

/-- A firing leaves the published schedule waiting or takes it; it publishes none (44_servo_output.md R129, R130). -/
theorem fire_nextPending_cases :
    (fire s).sched.nextPending = s.sched.nextPending ∨ (fire s).sched.nextPending = false := by
  rw [fire_sched]; split
  · exact .inr (Sched.swap_nextPending _)
  · exact .inl rfl
end fire

/-! ## One effect per instruction -/

/-- What an instruction but `EV_RESET` can do from `s`: one constructor per way, with what enables it. -/
inductive Effect (s : State) : Instr → State → Prop where
  /-- A step that is not enabled is no move (log 4). -/
  | waits {i : Instr} (h : enabled i s = false) : Effect s i s
  /-- A command writes its result word and nothing else (which word, the commands' own rules say). -/
  | answers {i : Instr} {c : Word32} (hc : encode i = .command c) (h : enabled i s = true) (w : Word32) :
      Effect s i (s.setRsp w)
  | startsDrain (h : taskReady s = true) : Effect s .ppmPre ((s.setDecPhase true).setRsp doneWord)
  | setsTarget (h : taskReady s = true) (ch : Channel) (hc : srvInRange s.cfg ch = true) (v : Tick) (a : Bool) :
      Effect s (.srvSet ch v a)
        ((s.setSrv (s.srv.set ch.toNat
          { servoAt s.srv ch.toNat with timerValue := clampPulse s.cfg v, active := a })).setRsp doneWord)
  | setsEnable (h : taskReady s = true) (ch : Channel) (hc : srvInRange s.cfg ch = true) (en : Bool) :
      Effect s (.cfgEnable ch en)
        ((s.setSrv (s.srv.set ch.toNat { servoAt s.srv ch.toNat with enabled := en })).setRsp doneWord)
  | publishes (h : taskReady s = true) (hp : s.sched.nextPending = false) :
      Effect s .srvPost
        ((s.setSched (s.sched.publish (scheduleSteps s.cfg s.srv) (scheduleDrive s.cfg s.srv))).setRsp doneWord)
  | ticksIn : Effect s .evTickIn (s.setTbIn (s.tbIn + 1#16))
  | ticksOut : Effect s .evTickOut (s.setTmr s.tmr.tick)
  | drivesPins (p : PortMask) :
      Effect s (.evPin p)
        ((s.setEdgeFlag (s.edgeFlag || monitoredChange s.cfg s.inPort (portBits s.cfg p))).setInPort (portBits s.cfg p))
  | pushesEdge (h : edgeIsrReady s = true) :
      Effect s .evEdgeIsr
        ((s.setRing (s.ring.push s.cfg.ringCap { ts := s.tbIn, snap := s.inPort })).setEdgePhase true)
  | clearsEdge (h : edgeIsrClrReady s = true) : Effect s .evEdgeIsrClr ((s.setEdgeFlag false).setEdgePhase false)
  | fires (h : timerIsrReady s = true) : Effect s .evTimerIsr (fire s)
  | decodesEdge (h : decodeOneReady s = true) :
      Effect s .evDecodeOne
        ((s.setRing { slots := s.ring.slots, wr := s.ring.wr, rd := ringNext s.cfg.ringCap s.ring.rd }).setPpm
          (s.ppm.decodeEvent s.cfg (s.ring.slot s.ring.rd)))
  | endsDrain (h : decodeEndReady s = true) :
      Effect s .evDecodeEnd ((s.setPpm (s.ppm.watchdog s.cfg s.tbIn)).setDecPhase false)

namespace Effect

variable {s t u : State} {i : Instr}

/-- A step taken by `takeIf` waits, or does what it does when enabled. -/
theorem of_takeIf (h : takeIf (enabled i s) s t = .next u) (he : enabled i s = true → Effect s i t) :
    Effect s i u := by
  obtain ⟨hr, rfl⟩ | ⟨hr, rfl⟩ := takeIf_cases h
  · exact he hr
  · exact .waits hr

/-- A command with no effect but its result word. -/
theorem of_answer {c w : Word32} (hc : encode i = .command c)
    (h : takeIf (enabled i s) s (s.setRsp w) = .next u) : Effect s i u :=
  of_takeIf h fun hr => .answers hc hr w

/-- `SRV_SET` and `CFG_ENABLE`: out of range they only answer (44_servo_output.md R123, R125). -/
theorem of_setChannel {ch : Channel} {f : Servo → Servo} {c : Word32} (hc : encode i = .command c)
    (hi : enabled i s = taskReady s) (h : setChannel ch f s = .next t)
    (he : taskReady s = true → srvInRange s.cfg ch = true →
      Effect s i ((s.setSrv (s.srv.set ch.toNat (f (servoAt s.srv ch.toNat)))).setRsp doneWord)) : Effect s i t := by
  unfold setChannel command at h
  rw [← hi] at h he
  split at h
  next hch => exact of_takeIf h fun hr => he hr hch
  · exact of_answer hc h

/-- `SRV_POST` fails while a published schedule waits (44_servo_output.md R127). -/
theorem of_srvPost (h : execSrvPost s = .next t) : Effect s .srvPost t := by
  unfold execSrvPost at h
  split at h
  · exact of_answer rfl h
  next hp => exact of_takeIf h fun hr => .publishes hr (eq_false_of_ne_true hp)

/-- An enabled `EV_DECODE_ONE` finds an event in the ring (42_ppm_decoder.md R105). -/
theorem of_evDecodeOne (h : execEvDecodeOne s = .next t) : Effect s .evDecodeOne t := by
  refine of_takeIf h fun hr => ?_
  obtain ⟨-, hne, -⟩ := (decodeOneReady_iff s).mp hr
  obtain ⟨he, -⟩ | ⟨-, hpop⟩ := Ring.pop_cases s.cfg.ringCap s.ring
  · exact absurd he hne
  · rw [hpop]; exact .decodesEdge hr

end Effect

/-- Everything an instruction but `EV_RESET` can do. -/
theorem exec_effect {i : Instr} {s t : State} (hi : i ≠ .evReset) (h : exec i s = .next t) : Effect s i t := by
  cases i with
  | tbNow sel => exact .of_answer rfl h
  | tbElapsed sel since => exact .of_answer rfl h
  | ppmPre => exact .of_takeIf h .startsDrain
  | ppmGet ch => exact .of_answer rfl h
  | ppmSet ch value active => exact .of_answer rfl h
  | ppmPost => exact .of_answer rfl h
  | srvPre => exact .of_answer rfl h
  | srvGet ch => exact .of_answer rfl h
  | srvSet ch value active =>
    unfold exec execSrvSet at h
    exact .of_setChannel rfl rfl h fun hr hc => .setsTarget hr ch hc value active
  | srvPost => exact .of_srvPost h
  | cfgEnable ch en =>
    unfold exec execCfgEnable at h
    exact .of_setChannel rfl rfl h fun hr hc => .setsEnable hr ch hc en
  | evTickIn => cases h; exact .ticksIn
  | evTickOut => cases h; exact .ticksOut
  | evPin p => cases h; exact .drivesPins p
  | evEdgeIsr => exact .of_takeIf h .pushesEdge
  | evEdgeIsrClr => exact .of_takeIf h .clearsEdge
  | evTimerIsr => exact .of_takeIf h .fires
  | evDecodeOne => exact .of_evDecodeOne h
  | evDecodeEnd => exact .of_takeIf h .endsDrain
  | evReset => exact absurd rfl hi

end Sys2Proof.Machine
end

section
/-! The writers of each element of the state (10_state.md R49). -/

namespace Sys2Proof.Machine

/-- A flag that an `or` changes is set. -/
theorem or_eq_true_of_ne {a b : Bool} (h : (a || b) ≠ a) : (a || b) = true := by
  cases a
  · simpa using h
  · rfl

/-- Settles O57: each effect an instruction can have writes only the elements that R49 lists for it. -/
theorem eachElementHasItsWriters : Obligations.EachElementHasItsWriters := by
  intro i s t hi h
  cases exec_effect hi h with
  | waits => simp
  | answers hc => simp [hc]
  | startsDrain => simp [encode]
  | setsTarget => simp [encode]
  | setsEnable => simp [encode]
  | publishes => simp [encode]
  | ticksIn => simp
  | ticksOut =>
    have hset : s.tmr.tick.flag ≠ s.tmr.flag → s.tmr.tick.flag = true := or_eq_true_of_ne
    simpa [Timer.tick] using hset
  | drivesPins p => simpa using or_eq_true_of_ne
  | pushesEdge => simp [Ring.push_rd]
  | clearsEdge => simp
  | fires =>
    have htake := (fire_nextPending_cases s).resolve_left
    simpa using htake
  | decodesEdge => simp
  | endsDrain => simp

end Sys2Proof.Machine
end

section
/-! Decoding by the rows of 30_encoding.md R76: a word that hits a row decodes to what the row builds. -/

namespace Sys2Proof

/-- The bits that two rows both fix agree on a word that hits both. -/
theorem CmdRow.hits_patterns_agree {r r' : CmdRow} {w : Word32} (h : r.hits w = true) (h' : r'.hits w = true) :
    r.pattern &&& r.mask &&& r'.mask = r'.pattern &&& r.mask &&& r'.mask := by
  rw [CmdRow.hits, beq_iff_eq] at h h'
  rw [← h, ← h']
  ext i hi
  simp only [BitVec.getElem_and]
  cases r.mask[i] <;> cases r'.mask[i] <;> simp

/-- Among rows that do not overlap, the search finds the row that a word hits. -/
theorem find?_hits_of_mem {rows : List CmdRow} {r : CmdRow} {w : Word32}
    (hd : rows.Pairwise (fun r r' => r.pattern &&& r.mask &&& r'.mask ≠ r'.pattern &&& r.mask &&& r'.mask))
    (hr : r ∈ rows) (hw : r.hits w = true) : rows.find? (fun r => r.hits w) = some r := by
  induction hd with
  | nil => cases hr
  | @cons x rows hx _ ih =>
    obtain rfl | hr := List.mem_cons.mp hr
    · exact List.find?_cons_of_pos hw
    · have hxw : ¬ x.hits w = true := fun hxw => hx r hr (CmdRow.hits_patterns_agree hxw hw)
      exact (List.find?_cons_of_neg (p := (CmdRow.hits · w)) hxw).trans (ih hr)

/-- A word that hits a row of R76 decodes to the row's instruction with the word's fields (R80). -/
theorem decode_command_of_hits {r : CmdRow} {w : Word32} (hr : r ∈ commandRows) (hw : w &&& r.mask = r.pattern) :
    decode (.command w) = .ok (r.build (chField w) (aField w) (vField w)) := by
  rw [decode, decodeCommand, find?_hits_of_mem commandRows_disjoint hr (beq_iff_eq.mpr hw)]

theorem selOfBit_eq_ite (a : Bool) : selOfBit a = if a then .output else .input := by cases a <;> rfl

end Sys2Proof
end

section
/-! TimeBase (40_timebase.md R88, R90, R91): the two counters and the commands that read them. -/

namespace Sys2Proof.Machine

/-- `Result(1, 0, 0, val)` as a number (30_encoding.md R82). -/
theorem resultWord_ok (val : Tick) : resultWord true false false val = 0x80000000#32 ||| val.setWidth 32 := by
  rw [resultWord, BitVec.append_def, BitVec.setWidth'_eq]
  rfl

/-- The delta of two ticks as a number (40_timebase.md R91). -/
theorem elapsed_setWidth (now since : Tick) :
    (elapsed now since).setWidth 32 = BitVec.ofNat 32 ((now.toNat + 65536 - since.toNat) % 65536) := by
  have hdelta : (elapsed now since).toNat = (now.toNat + 65536 - since.toNat) % 65536 := by
    rw [elapsed]; bv_omega
  rw [← hdelta, BitVec.ofNat_toNat]

/-- The next tick as a number (40_timebase.md R88). -/
theorem add_one_eq_ofNat_mod (t : Tick) : t + 1#16 = BitVec.ofNat 16 ((t.toNat + 1) % 65536) := by bv_omega

/-- A `TASK` command runs when no drain is active and the edge handler is not between its steps (60_exceptions.md
R146). -/
theorem command_ready {s t : State} {w : Word32} (hd : s.decPhase = false) (he : s.edgePhase = false) :
    command s t w = .next (t.setRsp w) :=
  command_enabled ((taskReady_iff s).mpr ⟨hd, he⟩)

/-- Settles O15: the row's hit gives the decoding, and a ready command writes only `RSP`. -/
theorem tbNowReadsTheSelectedCounter : Obligations.TbNowReadsTheSelectedCounter := by
  constructor
  · intro w hw
    rw [decode_command_of_hits (.head _) hw, ← selOfBit_eq_ite]
    rfl
  · intro s sel hd he
    rw [exec, execTbNow, command_ready hd he, resultWord_ok]
    rfl

/-- Settles O16: as O15, with the delta of the selected counter to `since`. -/
theorem tbElapsedIsTheWraparoundDelta : Obligations.TbElapsedIsTheWraparoundDelta := by
  constructor
  · intro w hw
    rw [decode_command_of_hits (.tail _ (.head _)) hw, ← selOfBit_eq_ite]
    rfl
  · intro s sel since hd he
    rw [exec, execTbElapsed, command_ready hd he, resultWord_ok, elapsed_setWidth]
    rfl

/-- Settles O17: an input tick writes the input counter and nothing else, from every state. -/
theorem tickInIncrementsTheInputCounter : Obligations.TickInIncrementsTheInputCounter := by
  refine ⟨rfl, fun s => ⟨rfl, ?_⟩⟩
  rw [exec, execEvTickIn, add_one_eq_ofNat_mod]
  rfl

end Sys2Proof.Machine
end

section
/-! Edge capture (41_edge_capture.md R94, R96): the input port and the return of the edge handler. -/

namespace Sys2Proof.Machine

/-- A payload that fits the port is kept whole (41_edge_capture.md R94). -/
theorem portBits_of_wf {cfg : Config} {p : PortMask} (h : Instr.wf cfg.portW (.evPin p) = true) :
    portBits cfg p = p :=
  Nat.mod_eq_of_lt (of_decide_eq_true h)

/-- The flag after a pin event: set by a monitored change, kept otherwise (41_edge_capture.md R94). -/
theorem or_monitoredChange (cfg : Config) (flag : Bool) (old new : PortMask) :
    (flag || monitoredChange cfg old new) = if old &&& cfg.ppmMask ≠ new &&& cfg.ppmMask then true else flag := by
  unfold monitoredChange
  split
  next hne => rw [bne_iff_ne.mpr hne, Bool.or_true]
  next heq => rw [not_ne_iff.mp heq, bne_self_eq_false, Bool.or_false]

/-- The handler's second step waits for its first alone (60_exceptions.md R146). -/
theorem edgeIsrClrReady_iff (s : State) : edgeIsrClrReady s = true ↔ s.edgePhase = true := Iff.rfl

/-- Settles O21: a payload of the port's width is taken whole, and the monitored bits decide the flag. -/
theorem pinSetsTheEdgeFlagOnAMonitoredChange : Obligations.PinSetsTheEdgeFlagOnAMonitoredChange := by
  refine fun s p => ⟨rfl, rfl, fun hwf => ?_⟩
  rw [exec, execEvPin, portBits_of_wf hwf, or_monitoredChange]
  rfl

/-- Settles O23: the handler's second step is enabled by `EDGE_PHASE` alone and writes only the two flags. -/
theorem edgeHandlerReturnsWithTheFlagClear : Obligations.EdgeHandlerReturnsWithTheFlagClear := by
  refine ⟨rfl, fun s => ⟨edgeIsrClrReady_iff s, fun hphase => ?_⟩⟩
  rw [exec, execEvEdgeIsrClr, (edgeIsrClrReady_iff s).mpr hphase, takeIf_enabled]
  rfl

end Sys2Proof.Machine
end

section
/-! PPM decoder (42_ppm_decoder.md R108): the watchdog and the end of the drain. -/

namespace Sys2Proof.Machine

/-- The watchdog expires strictly after INACTIVITY_TIMEOUT ticks (42_ppm_decoder.md R108). -/
theorem inactive_iff (cfg : Config) (now last : Tick) :
    inactive cfg now last = true ↔ (now - last).toNat > cfg.inactivityTimeout :=
  decide_eq_true_iff

/-- The watchdog writes `active` alone: an expired one clears it (42_ppm_decoder.md R108). -/
theorem Ppm.watchdog_eq (cfg : Config) (p : Ppm) (now : Tick) :
    p.watchdog cfg now =
      { p with active := if (now - p.lastToggleTime).toNat > cfg.inactivityTimeout then false else p.active } := by
  unfold Ppm.watchdog
  split
  next hexp => rw [if_pos ((inactive_iff ..).mp hexp)]
  next hlive => rw [if_neg (mt (inactive_iff ..).mpr hlive)]

/-- Settles O28: the drain ends on an empty ring, and it writes only what the watchdog and `DEC_PHASE` write. -/
theorem decodeEndRunsTheWatchdog : Obligations.DecodeEndRunsTheWatchdog := by
  refine ⟨rfl, fun s => ⟨decodeEndReady_iff s, fun hdec hempty hedge => ?_⟩⟩
  rw [exec, execEvDecodeEnd, (decodeEndReady_iff s).mpr ⟨hdec, hempty, hedge⟩, takeIf_enabled, Ppm.watchdog_eq]
  rfl

end Sys2Proof.Machine
end

section
/-! Servo output (44_servo_output.md R123, R127): the write of one channel, and the publish into the standby buffer. -/

namespace Sys2Proof.Machine

/-! ## One channel -/

/-- A servo command's channel is in range below N_SERVO (30_encoding.md R77). -/
theorem srvInRange_iff (cfg : Config) (ch : Channel) : srvInRange cfg ch = true ↔ ch.toNat < cfg.nServo :=
  decide_eq_true_iff

/-- A ready write of a channel in range, with what the channel held (44_servo_output.md R123, R125). -/
theorem setChannel_inRange {s : State} {ch : Channel} {x : Servo} (f : Servo → Servo) (hd : s.decPhase = false)
    (he : s.edgePhase = false) (hc : ch.toNat < s.cfg.nServo) (hx : s.srv[ch.toNat]? = some x) :
    setChannel ch f s = .next ((s.setSrv (s.srv.set ch.toNat (f x))).setRsp doneWord) := by
  rw [setChannel, if_pos ((srvInRange_iff ..).mpr hc), command_ready hd he, servoAt_of_get hx]

/-- A ready write of a channel out of range only answers the failure (44_servo_output.md R123, R125). -/
theorem setChannel_outOfRange {s : State} {ch : Channel} (f : Servo → Servo) (hd : s.decPhase = false)
    (he : s.edgePhase = false) (hc : s.cfg.nServo ≤ ch.toNat) : setChannel ch f s = .next (s.setRsp failWord) := by
  rw [setChannel, if_neg (mt (srvInRange_iff ..).mp hc.not_gt), command_ready hd he]

/-- A ready set in range stores the clamped width and the active flag (44_servo_output.md R123). -/
theorem execSrvSet_inRange {s : State} {ch : Channel} {x : Servo} (v : Tick) (a : Bool) (hd : s.decPhase = false)
    (he : s.edgePhase = false) (hc : ch.toNat < s.cfg.nServo) (hx : s.srv[ch.toNat]? = some x) :
    execSrvSet ch v a s =
      .next ((s.setSrv (s.srv.set ch.toNat { x with timerValue := clampPulse s.cfg v, active := a })).setRsp
        doneWord) :=
  setChannel_inRange _ hd he hc hx

/-- A ready set out of range only answers the failure (44_servo_output.md R123). -/
theorem execSrvSet_outOfRange {s : State} {ch : Channel} (v : Tick) (a : Bool) (hd : s.decPhase = false)
    (he : s.edgePhase = false) (hc : s.cfg.nServo ≤ ch.toNat) : execSrvSet ch v a s = .next (s.setRsp failWord) :=
  setChannel_outOfRange _ hd he hc

/-- Settles O34: the row's hit gives the decoding; a ready set in range writes one element of the channel array, and
one out of range only answers. -/
theorem srvSetClampsAndStores : Obligations.SrvSetClampsAndStores := by
  constructor
  · intro w hw
    exact decode_command_of_hits (r := commandRows[8]) (List.getElem_mem _) hw
  · refine fun s ch v a hlen hd he => ⟨fun hc => ?inRange, execSrvSet_outOfRange v a hd he⟩
    case inRange =>
      have hlt : ch.toNat < s.srv.length := hlen ▸ hc
      have hx := List.getElem?_eq_getElem hlt
      exact ⟨_, _, hx, execSrvSet_inRange v a hd he hc hx, rfl, List.length_set, List.getElem?_set_self hlt,
        fun c hne => List.getElem?_set_ne hne.symm⟩

/-! ## The publish -/

/-- A publish loads the standby buffer (44_servo_output.md R127). -/
@[simp] theorem Sched.publish_standby (d : Sched) (st : List PulseStep) (m : PortMask) :
    (d.publish st m).standby = d.standby.load st m := by
  rw [Sched.standby, Sched.publish_cur]
  exact Sched.setBuffer_same ..

/-- A publish keeps the buffer that the engine executes (44_servo_output.md R127, R128). -/
@[simp] theorem Sched.publish_current (d : Sched) (st : List PulseStep) (m : PortMask) :
    (d.publish st m).current = d.current := by
  rw [Sched.current, Sched.publish_cur, Sched.publish_buffer_cur]

/-- A ready post with a schedule still published only answers the failure (44_servo_output.md R127). -/
theorem execSrvPost_pending {s : State} (hd : s.decPhase = false) (he : s.edgePhase = false)
    (hp : s.sched.nextPending = true) : execSrvPost s = .next (s.setRsp failWord) := by
  rw [execSrvPost, if_pos hp, command_ready hd he]

/-- A ready post with a free standby buffer publishes what it builds (44_servo_output.md R127). -/
theorem execSrvPost_free {s : State} (hd : s.decPhase = false) (he : s.edgePhase = false)
    (hp : s.sched.nextPending = false) :
    execSrvPost s =
      .next ((s.setSched (s.sched.publish (scheduleSteps s.cfg s.srv) (scheduleDrive s.cfg s.srv))).setRsp
        doneWord) := by
  rw [execSrvPost, hp, if_neg Bool.false_ne_true, command_ready hd he]

/-- Settles O42: the two answers of a ready post, and what a publish writes of the double buffer. -/
theorem srvPostPublishesOrFails : Obligations.SrvPostPublishesOrFails := by
  refine ⟨rfl, fun s hd he => ⟨execSrvPost_pending hd he, fun hp => ⟨_, execSrvPost_free hd he hp, rfl, ?_⟩⟩⟩
  rw [State.setRsp_sched, State.setSched_sched, Sched.publish_standby]
  exact ⟨rfl, Sched.publish_cur .., Sched.publish_current .., rfl, Buffer.load_take .., Buffer.load_drop .., rfl⟩

end Sys2Proof.Machine
end

section
/-! The command words by their fields (30_encoding.md R74, R76): a word hits a row iff its fields meet the row's
constraint, and the words of the rows are the encodings of the commands. -/

namespace Sys2Proof

open Sys2Proof.Laws

/-! ## A word is its fields -/

/-- The two halves of a concatenation are determined by it. -/
theorem append_eq_append_iff {n m : Nat} {x x' : BitVec n} {y y' : BitVec m} :
    x ++ y = x' ++ y' ↔ x = x' ∧ y = y' := by
  constructor
  · intro h
    have hl := congrArg (BitVec.extractLsb' m n) h
    have hr := congrArg (BitVec.extractLsb' 0 m) h
    rw [BitVec.extractLsb'_append_eq_left, BitVec.extractLsb'_append_eq_left] at hl
    rw [BitVec.extractLsb'_append_eq_right, BitVec.extractLsb'_append_eq_right] at hr
    exact ⟨hl, hr⟩
  · rintro ⟨rfl, rfl⟩
    rfl

/-- One bit of a word as a vector of length 1. -/
theorem ofBool_getLsbD (w : Word32) (k : Nat) : BitVec.ofBool (w.getLsbD k) = w.extractLsb' k 1 := by
  ext i hi
  obtain rfl : i = 0 := by omega
  simp

/-- A word is `{OP, CH, A, RSV, V}` (30_encoding.md R74). -/
theorem word_eq_fields (w : Word32) :
    w = opField w ++ chField w ++ BitVec.ofBool (aField w) ++ rsvField w ++ vField w := by
  rw [opField, chField, aField, rsvField, vField, ofBool_getLsbD,
    BitVec.extractLsb'_append_extractLsb'_eq_extractLsb' (start₂ := 28) (start₁ := 23) (len₁ := 5) rfl,
    BitVec.extractLsb'_append_extractLsb'_eq_extractLsb' (start₂ := 23) (start₁ := 22) (len₁ := 1) rfl,
    BitVec.extractLsb'_append_extractLsb'_eq_extractLsb' (start₂ := 22) (start₁ := 16) (len₁ := 6) rfl,
    BitVec.extractLsb'_append_extractLsb'_eq_extractLsb' (start₂ := 16) (start₁ := 0) (len₁ := 16) rfl]
  exact BitVec.extractLsb'_eq_self.symm

/-- A word with `RSV = 0` is the command word of its other fields (30_encoding.md R74). -/
theorem word_eq_cmdWord {w : Word32} (h : rsvField w = 0#6) :
    cmdWord (opField w) (chField w) (aField w) (vField w) = w := by
  rw [cmdWord, ← h]
  exact (word_eq_fields w).symm

/-- A mask and a pattern that are given field by field constrain a word field by field (30_encoding.md R76). -/
theorem word_and_eq_iff (w : Word32) (mo po : BitVec 4) (mc pc : BitVec 5) (ma pa : BitVec 1) (mr pr : BitVec 6)
    (mv pv : BitVec 16) :
    w &&& (mo ++ mc ++ ma ++ mr ++ mv) = po ++ pc ++ pa ++ pr ++ pv ↔
      opField w &&& mo = po ∧ chField w &&& mc = pc ∧ BitVec.ofBool (aField w) &&& ma = pa ∧
        rsvField w &&& mr = pr ∧ vField w &&& mv = pv := by
  have hand : w &&& (mo ++ mc ++ ma ++ mr ++ mv) =
      (opField w &&& mo) ++ (chField w &&& mc) ++ (BitVec.ofBool (aField w) &&& ma) ++ (rsvField w &&& mr) ++
        (vField w &&& mv) := by
    rw [← BitVec.and_append, ← BitVec.and_append, ← BitVec.and_append, ← BitVec.and_append]
    exact congrArg (· &&& (mo ++ mc ++ ma ++ mr ++ mv)) (word_eq_fields w)
  rw [hand, append_eq_append_iff, append_eq_append_iff, append_eq_append_iff, append_eq_append_iff]
  simp only [and_assoc]

/-! ## The rows -/

/-- The words of a row that fixes `OP` and, where the flags say so, `CH`, `A` and `V` to zero; `RSV` always (R76). -/
structure RowFields where
  op : BitVec 4
  fixedCh : Bool
  fixedA : Bool
  fixedV : Bool


/-- The field constraint of a row (R76). -/
def RowFields.Meets (r : RowFields) (w : Word32) : Prop :=
  opField w = r.op ∧ (r.fixedCh = true → chField w = 0#5) ∧ (r.fixedA = true → aField w = false) ∧
    rsvField w = 0#6 ∧ (r.fixedV = true → vField w = 0#16)

/-- A field's mask: all ones where the field is fixed. -/
def fieldMask (n : Nat) (fixed : Bool) : BitVec n := if fixed then BitVec.allOnes n else 0#n

theorem and_fieldMask_eq_zero {n : Nat} (x : BitVec n) (fixed : Bool) :
    x &&& fieldMask n fixed = 0#n ↔ (fixed = true → x = 0#n) := by
  cases fixed <;> simp [fieldMask]

theorem ofBool_eq_zero (a : Bool) : BitVec.ofBool a = 0#1 ↔ a = false := by cases a <;> decide

/-- The mask of a row, from its fields. -/
def RowFields.mask (r : RowFields) : Word32 :=
  BitVec.allOnes 4 ++ fieldMask 5 r.fixedCh ++ fieldMask 1 r.fixedA ++ BitVec.allOnes 6 ++ fieldMask 16 r.fixedV

/-- The pattern of a row, from its fields. -/
def RowFields.pattern (r : RowFields) : Word32 := r.op ++ 0#5 ++ 0#1 ++ 0#6 ++ 0#16

/-- A word hits a row iff its fields meet the row's constraint. -/
theorem RowFields.hits_iff (r : RowFields) (w : Word32) : w &&& r.mask = r.pattern ↔ r.Meets w := by
  rw [RowFields.mask, RowFields.pattern, word_and_eq_iff]
  simp only [BitVec.and_allOnes, and_fieldMask_eq_zero, ofBool_eq_zero, RowFields.Meets]

/-- The field constraints of R76, in the order of the opcodes. -/
def rowFields : List RowFields :=
  [⟨1#4, true, false, true⟩, ⟨2#4, true, false, false⟩, ⟨3#4, true, true, true⟩, ⟨4#4, false, true, true⟩,
    ⟨5#4, false, false, false⟩, ⟨6#4, true, true, true⟩, ⟨7#4, true, true, true⟩, ⟨8#4, false, true, true⟩,
    ⟨9#4, false, false, false⟩, ⟨10#4, true, true, true⟩, ⟨11#4, false, false, true⟩]

/-- The rows of the decoder are those field constraints, one by one. -/
theorem rowFields_agree :
    ∀ p ∈ commandRows.zip rowFields, p.1.mask = p.2.mask ∧ p.1.pattern = p.2.pattern := by decide

theorem exists_rowFields_of_mem {r : CmdRow} (hr : r ∈ commandRows) : ∃ f, (r, f) ∈ commandRows.zip rowFields := by
  obtain ⟨k, hk, rfl⟩ := List.mem_iff_getElem.mp hr
  exact ⟨rowFields[k], List.mem_iff_getElem.mpr ⟨k, hk, List.getElem_zip⟩⟩

theorem exists_row_of_mem {f : RowFields} (hf : f ∈ rowFields) : ∃ r, (r, f) ∈ commandRows.zip rowFields := by
  obtain ⟨k, hk, rfl⟩ := List.mem_iff_getElem.mp hf
  exact ⟨commandRows[k], List.mem_iff_getElem.mpr ⟨k, hk, List.getElem_zip⟩⟩

/-- A word decodes iff its fields meet a row's constraint, and then to what the row builds (30_encoding.md R80). -/
theorem decode_command_iff {w : Word32} {i : Instr} :
    decode (.command w) = .ok i ↔
      ∃ r f, (r, f) ∈ commandRows.zip rowFields ∧ f.Meets w ∧ r.build (chField w) (aField w) (vField w) = i := by
  constructor
  · intro h
    rw [decode, decodeCommand] at h
    split at h
    next r hr =>
      obtain ⟨f, hf⟩ := exists_rowFields_of_mem (List.mem_of_find?_eq_some hr)
      obtain ⟨hm, hp⟩ := rowFields_agree _ hf
      have hw : w &&& r.mask = r.pattern := beq_iff_eq.mp (List.find?_some (p := (CmdRow.hits · w)) hr)
      exact ⟨r, f, hf, (f.hits_iff w).mp (hm ▸ hp ▸ hw), Except.ok.inj h⟩
    · cases h
  · rintro ⟨r, f, hf, hw, rfl⟩
    obtain ⟨hm, hp⟩ := rowFields_agree _ hf
    refine decode_command_of_hits (List.of_mem_zip hf).1 ?_
    rw [hm, hp]
    exact (f.hits_iff w).mpr hw

/-- A word decodes to some instruction iff it meets some field constraint. -/
theorem exists_decode_iff (w : Word32) : (∃ i, decode (.command w) = .ok i) ↔ ∃ f ∈ rowFields, f.Meets w := by
  constructor
  · rintro ⟨i, h⟩
    obtain ⟨r, f, hf, hw, -⟩ := decode_command_iff.mp h
    exact ⟨f, (List.of_mem_zip hf).2, hw⟩
  · rintro ⟨f, hf, hw⟩
    obtain ⟨r, hr⟩ := exists_row_of_mem hf
    exact ⟨_, decode_command_iff.mpr ⟨r, f, hr, hw, rfl⟩⟩

/-- An illegal word is no event code: it is one of the two illegal errors (30_encoding.md R81). -/
theorem decode_command_error {w : Word32} {e : DecodeError} (h : decode (.command w) = .error e) :
    e = .illegalOpcode ∨ e = .illegalFixedField := by
  rw [decode, decodeCommand] at h
  split at h
  · cases h
  · cases h
    split
    · exact .inr rfl
    · exact .inl rfl

/-! ## The round trips -/

/-- The encoding of a command hits the row of its opcode, with the fields it was written from. -/
theorem decode_cmdWord {r : CmdRow} {op : BitVec 4} {ch : Channel} {a : Bool} {v : Tick} (hr : r ∈ commandRows)
    (hw : cmdWord op ch a v &&& r.mask = r.pattern) : decode (.command (cmdWord op ch a v)) = .ok (r.build ch a v) := by
  rw [decode_command_of_hits hr hw, chField_cmdWord, aField_cmdWord, vField_cmdWord]

/-- Settles O2: each command's encoding hits its own row, whose fields give the operands back. -/
theorem decodeOfEncodeIsTheInstruction : Obligations.DecodeOfEncodeIsTheInstruction := by
  intro i
  cases i with
  | tbNow sel =>
    exact (decode_cmdWord (r := commandRows[0]) (List.getElem_mem _) (FixedBits.tbNow sel)).trans
      (by simp [commandRows, selOfBit_bitOfSel])
  | tbElapsed sel since =>
    exact (decode_cmdWord (r := commandRows[1]) (List.getElem_mem _) (FixedBits.tbElapsed sel since)).trans
      (by simp [commandRows, selOfBit_bitOfSel])
  | ppmPre => rfl
  | ppmGet ch => exact decode_cmdWord (r := commandRows[3]) (List.getElem_mem _) (FixedBits.ppmGet ch)
  | ppmSet ch v a => exact decode_cmdWord (r := commandRows[4]) (List.getElem_mem _) (FixedBits.ppmSet ch v a)
  | ppmPost => rfl
  | srvPre => rfl
  | srvGet ch => exact decode_cmdWord (r := commandRows[7]) (List.getElem_mem _) (FixedBits.srvGet ch)
  | srvSet ch v a => exact decode_cmdWord (r := commandRows[8]) (List.getElem_mem _) (FixedBits.srvSet ch v a)
  | srvPost => rfl
  | cfgEnable ch en => exact decode_cmdWord (r := commandRows[10]) (List.getElem_mem _) (FixedBits.cfgEnable ch en)
  | evTickIn => rfl
  | evTickOut => rfl
  | evPin p => rfl
  | evEdgeIsr => rfl
  | evEdgeIsrClr => rfl
  | evTimerIsr => rfl
  | evDecodeOne => rfl
  | evDecodeEnd => rfl
  | evReset => rfl

/-- What a row builds encodes to the word's own fields, given the row's constraint on them. -/
theorem encode_build_of_meets {r : CmdRow} {f : RowFields} (h : (r, f) ∈ commandRows.zip rowFields) {w : Word32}
    (hw : f.Meets w) : encode (r.build (chField w) (aField w) (vField w)) = .command w := by
  obtain ⟨hop, hch, ha, hrsv, hv⟩ := hw
  rw [← congrArg Offer.command (word_eq_cmdWord hrsv), hop]
  simp only [commandRows, rowFields, List.zip_cons_cons, List.zip_nil_right, List.mem_cons, List.not_mem_nil, or_false,
    Prod.mk.injEq] at h
  rcases h with ⟨rfl, rfl⟩ | ⟨rfl, rfl⟩ | ⟨rfl, rfl⟩ | ⟨rfl, rfl⟩ | ⟨rfl, rfl⟩ | ⟨rfl, rfl⟩ | ⟨rfl, rfl⟩ | ⟨rfl, rfl⟩ |
    ⟨rfl, rfl⟩ | ⟨rfl, rfl⟩ | ⟨rfl, rfl⟩
  all_goals simp_all [encode, bitOfSel_selOfBit]

/-- Settles O3: the word's fields meet the constraint of the row it decodes by, which the encoder writes back. -/
theorem encodeOfDecodeIsTheWord : Obligations.EncodeOfDecodeIsTheWord := by
  intro w i h
  obtain ⟨r, f, hf, hw, rfl⟩ := decode_command_iff.mp h
  exact encode_build_of_meets hf hw

/-- Settles O4: the rows' field constraints, one disjunct for the rows that share one. -/
theorem legalWordsAreThoseOfTheFieldTable : Obligations.LegalWordsAreThoseOfTheFieldTable := by
  intro w
  rw [exists_decode_iff]
  simp only [rowFields, RowFields.Meets, List.exists_mem_cons_iff, List.not_mem_nil, false_and, exists_false, or_false,
    Bool.false_eq_true, false_imp_iff, true_imp_iff, true_and, and_true, opField, chField, aField, rsvField, vField]
  by_cases hrsv : w.extractLsb' 16 6 = 0#6
  · simp only [hrsv, true_and, and_true]
    grind
  · simp [hrsv]

/-! ## Event codes, result words and bytes -/

/-- Settles O1: the words and codes are evaluated by the decoder. -/
theorem sampleWordsDecode : Obligations.SampleWordsDecode :=
  ⟨rfl, rfl, rfl, rfl, rfl, rfl, rfl, rfl, rfl, rfl, rfl, rfl⟩

/-- A code outside 1 to 9 is no event (30_encoding.md R83). -/
theorem decodeEventCode_of_outside {c : EventCode} (h : c.toNat = 0 ∨ 9 < c.toNat) (p : PortMask) :
    decodeEventCode c p = .error (.notAnEvent c) := by
  unfold decodeEventCode
  split
  case h_10 => rfl
  all_goals omega

/-- Settles O5: the nine codes are evaluated, and the search falls through on every other one. -/
theorem eventCodesAreOneToNine : Obligations.EventCodesAreOneToNine :=
  fun p => ⟨rfl, fun _ hc => decodeEventCode_of_outside hc p⟩

/-- Settles O8: the lines are evaluated by the assembler. -/
theorem sampleLinesAssemble : Obligations.SampleLinesAssemble := by
  unfold Obligations.SampleLinesAssemble
  decide

/-- Settles O7: the bytes are consecutive slices of the word, so joining them gives it back. -/
theorem serialisedWordIsLittleEndian : Obligations.SerialisedWordIsLittleEndian := by
  refine fun w => ⟨rfl, rfl, rfl, congrArg some ?_⟩
  rw [BitVec.extractLsb'_append_extractLsb'_eq_extractLsb' (start₂ := 24) (start₁ := 16) (len₁ := 8) rfl,
    BitVec.extractLsb'_append_extractLsb'_eq_extractLsb' (start₂ := 16) (start₁ := 8) (len₁ := 8) rfl,
    BitVec.extractLsb'_append_extractLsb'_eq_extractLsb' (start₂ := 8) (start₁ := 0) (len₁ := 8) rfl]
  exact BitVec.extractLsb'_eq_self

end Sys2Proof
end

section
/-! The result word by its fields (30_encoding.md R82). -/

namespace Sys2Proof.Machine

section resultWord
variable (ok ill act : Bool) (val : Tick)

@[simp] theorem resultWord_okBit : (resultWord ok ill act val).getLsbD 31 = ok := by
  simp only [resultWord, BitVec.getLsbD_append]
  simp

@[simp] theorem resultWord_illBit : (resultWord ok ill act val).getLsbD 30 = ill := by
  simp only [resultWord, BitVec.getLsbD_append]
  simp

@[simp] theorem resultWord_actBit : (resultWord ok ill act val).getLsbD 16 = act := by
  simp only [resultWord, BitVec.getLsbD_append]
  simp

@[simp] theorem resultWord_zeros : (resultWord ok ill act val).extractLsb' 17 13 = 0#13 := by
  ext i hi
  simp only [resultWord, BitVec.getElem_extractLsb', BitVec.getLsbD_append]
  interval_cases i <;> simp

@[simp] theorem resultWord_val : (resultWord ok ill act val).extractLsb' 0 16 = val :=
  BitVec.extractLsb'_append_eq_right

end resultWord

/-- Settles O6: the five fields of the concatenation. -/
theorem resultWordFields : Obligations.ResultWordFields := fun _ _ _ _ =>
  ⟨resultWord_okBit .., resultWord_illBit .., resultWord_zeros .., resultWord_actBit .., resultWord_val ..⟩

end Sys2Proof.Machine
end

section
/-! What an admitted configuration is (00_scope.md R6), check by check, and the bits of its pins. -/

namespace Sys2Proof.Machine

/-! ## The seven checks -/

theorem oneHotBelow_iff {w : Nat} {m : PortMask} : oneHotBelow w m = true ↔ ∃ b < w, m = 2 ^ b := by
  simp [oneHotBelow]

theorem wfRing_iff {cfg : Config} :
    checkHolds cfg .wfRing = true ↔ 2 ≤ cfg.ringCap ∧ ∃ k, cfg.ringCap = 2 ^ k := by
  have hpow : cfg.ringCap = 2 ^ Nat.log2 cfg.ringCap ↔ ∃ k, cfg.ringCap = 2 ^ k :=
    ⟨fun h => ⟨_, h⟩, fun ⟨k, hk⟩ => by rw [hk, Nat.log2_two_pow]⟩
  simp [checkHolds, ← hpow]

theorem wfPort_iff {cfg : Config} :
    checkHolds cfg .wfPort = true ↔ 1 ≤ cfg.portW ∧ ∃ b < cfg.portW, cfg.ppmMask = 2 ^ b := by
  simp [checkHolds, oneHotBelow_iff]

theorem wfPins_iff {cfg : Config} :
    checkHolds cfg .wfPins = true ↔
      (∀ c < cfg.nServo, ∃ b < cfg.portW, cfg.pinMask c = 2 ^ b) ∧
        ∀ c < cfg.nServo, ∀ d < cfg.nServo, c ≠ d → cfg.pinMask c ≠ cfg.pinMask d := by
  have hnodup : (servoPins cfg).Nodup ↔
      ∀ c < cfg.nServo, ∀ d < cfg.nServo, c ≠ d → cfg.pinMask c ≠ cfg.pinMask d := by
    simp only [servoPins, List.nodup_map_iff_inj_on List.nodup_range, List.mem_range]
    exact forall₄_congr fun _ _ _ _ => not_imp_not.symm
  rw [← hnodup]
  simp only [checkHolds, Bool.and_eq_true, decide_eq_true_eq, List.all_eq_true, oneHotBelow_iff]
  simp [servoPins]

theorem wfCounts_iff {cfg : Config} :
    checkHolds cfg .wfCounts = true ↔
      1 ≤ cfg.nServo ∧ cfg.nServo ≤ 24 ∧ 1 ≤ cfg.nPpm ∧ cfg.nPpm ≤ 31 ∧ 1 ≤ cfg.kLanes := by
  simp [checkHolds, and_assoc]

theorem wfPulse_iff {cfg : Config} :
    checkHolds cfg .wfPulse = true ↔ 1 ≤ cfg.minPulse ∧ cfg.minPulse ≤ cfg.maxPulse ∧ cfg.maxPulse ≤ 65535 := by
  simp [checkHolds, and_assoc]

theorem wfPeriod_iff {cfg : Config} :
    checkHolds cfg .wfPeriod = true ↔
      (cfg.nServo + cfg.kLanes - 1) / cfg.kLanes * cfg.maxPulse < cfg.refreshPeriod ∧ cfg.refreshPeriod ≤ 65535 := by
  simp only [checkHolds, Bool.and_eq_true, decide_eq_true_eq]
  rfl

theorem wfThresh_iff {cfg : Config} :
    checkHolds cfg .wfThresh = true ↔ cfg.frameSyncThreshold ≤ 65535 ∧ cfg.inactivityTimeout ≤ 65535 := by
  simp [checkHolds]

theorem admitted_iff {cfg : Config} : Admitted cfg ↔ ∀ check, checkHolds cfg check = true := by
  simp only [Admitted, failedCheck, List.find?_eq_none, Bool.not_eq_true', Bool.not_eq_false]
  exact ⟨fun h check => h check (by cases check <;> decide), fun h check _ => h check⟩

/-- Settles O50: the seven checks, each with its own arithmetic. -/
theorem admittedIsTheConjunctionOfTheChecks : Obligations.AdmittedIsTheConjunctionOfTheChecks := by
  intro cfg
  rw [admitted_iff, ← wfRing_iff, ← wfPort_iff, ← wfPins_iff, ← wfCounts_iff, ← wfPulse_iff, ← wfPeriod_iff,
    ← wfThresh_iff]
  constructor
  · exact fun h => ⟨h _, h _, h _, h _, h _, h _, h _⟩
  · rintro ⟨hring, hport, hpins, hcounts, hpulse, hperiod, hthresh⟩ check
    cases check <;> assumption

section admitted
variable {cfg : Config} (h : Admitted cfg)
include h

theorem two_le_ringCap : 2 ≤ cfg.ringCap := (wfRing_iff.mp (admitted_iff.mp h _)).1

theorem one_le_kLanes : 1 ≤ cfg.kLanes := (wfCounts_iff.mp (admitted_iff.mp h _)).2.2.2.2

theorem one_le_minPulse : 1 ≤ cfg.minPulse := (wfPulse_iff.mp (admitted_iff.mp h _)).1

theorem minPulse_le_maxPulse : cfg.minPulse ≤ cfg.maxPulse := (wfPulse_iff.mp (admitted_iff.mp h _)).2.1

theorem maxPulse_le : cfg.maxPulse ≤ 65535 := (wfPulse_iff.mp (admitted_iff.mp h _)).2.2

theorem ceilDiv_mul_maxPulse_lt : ceilDiv cfg.nServo cfg.kLanes * cfg.maxPulse < cfg.refreshPeriod :=
  (wfPeriod_iff.mp (admitted_iff.mp h _)).1

theorem refreshPeriod_le : cfg.refreshPeriod ≤ 65535 := (wfPeriod_iff.mp (admitted_iff.mp h _)).2

theorem refreshPeriod_pos : 0 < cfg.refreshPeriod := (Nat.zero_le _).trans_lt (ceilDiv_mul_maxPulse_lt h)

end admitted

/-! ## Pins as bits -/

/-- Bit `b` of the output port is the pin of channel `c`, and of no other channel. -/
structure IsPinBit (cfg : Config) (c b : Nat) : Prop where
  mask : cfg.pinMask c = 2 ^ b
  lt : b < cfg.portW
  others : ∀ d < cfg.nServo, (cfg.pinMask d).testBit b = decide (d = c)

/-- Every channel of an admitted configuration has a bit of its own (00_scope.md R6). -/
theorem exists_isPinBit {cfg : Config} (h : Admitted cfg) {c : Nat} (hc : c < cfg.nServo) :
    ∃ b, IsPinBit cfg c b := by
  obtain ⟨hone, hne⟩ := wfPins_iff.mp (admitted_iff.mp h _)
  obtain ⟨b, hb, hmask⟩ := hone c hc
  refine ⟨b, hmask, hb, fun d hd => ?_⟩
  by_cases hdc : d = c
  · rw [hdc, hmask, Nat.testBit_two_pow_self, decide_eq_true rfl]
  · obtain ⟨b', -, hmask'⟩ := hone d hd
    have hbb : b' ≠ b := fun he => hne d hd c hc hdc (by rw [hmask, hmask', he])
    rw [hmask', Nat.testBit_two_pow_of_ne hbb, decide_eq_false hdc]

theorem pinMask_lt {cfg : Config} (h : Admitted cfg) {c : Nat} (hc : c < cfg.nServo) :
    cfg.pinMask c < 2 ^ cfg.portW := by
  obtain ⟨b, hb⟩ := exists_isPinBit h hc
  rw [hb.mask]
  exact Nat.pow_lt_pow_right (by decide) hb.lt

/-- A mask misses a pin iff the pin's bit is 0. -/
theorem and_two_pow_eq_zero_iff (m : PortMask) (b : Nat) : m &&& 2 ^ b = 0 ↔ m.testBit b = false := by
  rw [Nat.and_two_pow]
  cases m.testBit b <;> simp

@[simp] theorem testBit_xorMasks_cons (m : PortMask) (ms : List PortMask) (b : Nat) :
    (xorMasks (m :: ms)).testBit b = (m.testBit b ^^ (xorMasks ms).testBit b) := by
  rw [xorMasks_cons, Nat.testBit_xor]

/-- A bit that no mask has is not in their XOR. -/
theorem testBit_xorMasks_eq_false {ms : List PortMask} {b : Nat} (h : ∀ m ∈ ms, m.testBit b = false) :
    (xorMasks ms).testBit b = false := by
  induction ms with
  | nil => simp
  | cons m ms ih =>
    rw [testBit_xorMasks_cons, h m (List.mem_cons_self ..), ih fun x hx => h x (List.mem_cons_of_mem _ hx)]
    rfl

/-- A bit is in an OR of masks iff it is in one of them. -/
theorem testBit_orMasks (ms : List PortMask) (b : Nat) :
    (orMasks ms).testBit b = true ↔ ∃ m ∈ ms, m.testBit b = true := by
  induction ms with
  | nil => simp
  | cons m ms ih => simp [ih]

end Sys2Proof.Machine
end

section
/-! The builder's run (43_schedule_builder.md R116 to R118): the lanes from one event to the next, and what every
schedule built from them satisfies. -/

namespace Sys2Proof.Machine

/-! ## The run as a relation -/

/-- `Builds cfg width lanes mask sum steps`: from the event at time `sum`, whose toggles are `mask`, with the lanes as
they are after it, the builder writes `steps` (R117, R118). -/
inductive Builds (cfg : Config) (width : Nat → Nat) :
    List LaneCursor → PortMask → Nat → List PulseStep → Prop where
  | done {lanes : List LaneCursor} {mask : PortMask} {sum : Nat} (h : ∀ l ∈ lanes, l.queue = []) :
      Builds cfg width lanes mask sum [{ mask := mask, ticks := padTicks cfg sum }]
  | event {lanes : List LaneCursor} {mask : PortMask} {sum d : Nat} {steps : List PulseStep}
      (h : nextEvent lanes = some d)
      (rest : Builds cfg width (lanes.map (LaneCursor.advance width d))
        (xorMasks (lanes.map (LaneCursor.toggles cfg.pinMask width d))) (sum + d) steps) :
      Builds cfg width lanes mask sum ({ mask := mask, ticks := BitVec.ofNat 16 d } :: steps)

/-- The channels whose pulse has not ended: the events still to come are at most as many (R117). -/
def pendingChannels (lanes : List LaneCursor) : Nat := (lanes.map (fun l => l.queue.length)).sum

/-- Time takes channels from the front of a lane, and adds none. -/
theorem LaneCursor.advance_queue_suffix (width : Nat → Nat) (d : Nat) (l : LaneCursor) :
    (l.advance width d).queue <:+ l.queue := by
  obtain ⟨-, h⟩ | ⟨c, rest, hq, ⟨-, h⟩ | ⟨-, h⟩⟩ := l.advance_cases width d
  · rw [h]
  · rw [h, LaneCursor.start_queue, hq]
    exact List.suffix_cons c rest
  · rw [h, hq]

/-- The lane whose time is up loses its current channel. -/
theorem LaneCursor.advance_queue_length_lt {width : Nat → Nat} {d : Nat} {l : LaneCursor} (hq : l.queue ≠ [])
    (hd : l.left = d) : (l.advance width d).queue.length < l.queue.length := by
  obtain ⟨h, -⟩ | ⟨c, rest, hc, ⟨-, h⟩ | ⟨hlt, -⟩⟩ := l.advance_cases width d
  · exact absurd h hq
  · rw [h, LaneCursor.start_queue, hc]
    exact Nat.lt_succ_self _
  · omega

/-- Every event ends a pulse (R117). -/
theorem pendingChannels_advance_lt {width : Nat → Nat} {lanes : List LaneCursor} {d : Nat}
    (h : nextEvent lanes = some d) :
    pendingChannels (lanes.map (LaneCursor.advance width d)) < pendingChannels lanes := by
  obtain ⟨⟨l, hl, hq, hd⟩, -⟩ := nextEvent_some h
  rw [pendingChannels, pendingChannels, List.map_map]
  exact List.sum_lt_sum _ _ (fun x _ => (x.advance_queue_suffix width d).length_le)
    ⟨l, hl, LaneCursor.advance_queue_length_lt hq hd⟩

/-- No channel pending: every lane is done. -/
theorem queue_eq_nil_of_pendingChannels {lanes : List LaneCursor} (h : pendingChannels lanes = 0) :
    ∀ l ∈ lanes, l.queue = [] := by
  intro l hl
  have hle := List.le_sum_of_mem (List.mem_map_of_mem (f := fun l : LaneCursor => l.queue.length) hl)
  exact List.length_eq_zero_iff.mp (Nat.le_zero.mp (h ▸ hle))

/-- With fuel for every pending channel the builder runs to its end. -/
theorem builds_buildSteps (cfg : Config) (width : Nat → Nat) {fuel : Nat} {lanes : List LaneCursor}
    (hfuel : pendingChannels lanes ≤ fuel) (mask : PortMask) (sum : Nat) :
    Builds cfg width lanes mask sum (buildSteps cfg width fuel lanes mask sum) := by
  induction fuel generalizing lanes mask sum with
  | zero => exact .done (queue_eq_nil_of_pendingChannels (Nat.le_zero.mp hfuel))
  | succ fuel ih =>
    rw [buildSteps]
    split
    next hnone => exact .done (nextEvent_none.mp hnone)
    next d hsome =>
      exact .event hsome (ih (Nat.le_of_lt_succ ((pendingChannels_advance_lt hsome).trans_le hfuel)) _ _)

/-! ## The time left in the lanes -/

/-- The ticks until the lane is done. -/
def LaneCursor.remaining (width : Nat → Nat) (l : LaneCursor) : Nat :=
  match l.queue with
  | [] => 0
  | _ :: rest => l.left + (rest.map width).sum

theorem LaneCursor.remaining_start (width : Nat → Nat) (q : List Nat) :
    (LaneCursor.start width q).remaining width = (q.map width).sum := by
  cases q with
  | nil => rfl
  | cons c rest => rw [List.map_cons, List.sum_cons]; rfl

theorem LaneCursor.left_le_remaining {width : Nat → Nat} {l : LaneCursor} (hq : l.queue ≠ []) :
    l.left ≤ l.remaining width := by
  obtain ⟨left, queue⟩ := l
  cases queue with
  | nil => exact absurd rfl hq
  | cons c rest => exact Nat.le_add_right ..

/-- The lanes of a build in progress: `dealt` holds their channels, a current channel has time left, and every lane is
done before the period ends. -/
structure LanesRun (cfg : Config) (width : Nat → Nat) (dealt : List Nat) (lanes : List LaneCursor) (sum : Nat) :
    Prop where
  live : ∀ l ∈ lanes, l.queue ≠ [] → 0 < l.left
  dealt : ∀ l ∈ lanes, ∀ c ∈ l.queue, c ∈ dealt
  now : sum < cfg.refreshPeriod
  inTime : ∀ l ∈ lanes, sum + l.remaining width < cfg.refreshPeriod

section run
variable {cfg : Config} {width : Nat → Nat} {dealt : List Nat} {lanes : List LaneCursor} {mask : PortMask}
  {sum d : Nat} {steps : List PulseStep}

/-- A lane of positive widths that has just started a channel has time left. -/
theorem LaneCursor.start_left_pos {q : List Nat} (hw : ∀ c ∈ q, 0 < width c)
    (hq : (LaneCursor.start width q).queue ≠ []) : 0 < (LaneCursor.start width q).left := by
  cases q with
  | nil => exact absurd rfl hq
  | cons c rest => exact hw c (List.mem_cons_self ..)

/-- The ticks to the next event come off the lane's time. -/
theorem LaneCursor.advance_remaining {l : LaneCursor} (hd : l.queue ≠ [] → d ≤ l.left) (hq : l.queue ≠ []) :
    d + (l.advance width d).remaining width = l.remaining width := by
  obtain ⟨h, -⟩ | ⟨c, rest, hc, ⟨hle, h⟩ | ⟨hlt, h⟩⟩ := l.advance_cases width d
  · exact absurd h hq
  · have hrem : l.remaining width = l.left + (rest.map width).sum := by rw [LaneCursor.remaining, hc]
    have := hd hq
    rw [h, LaneCursor.remaining_start, hrem]
    omega
  · have hrem : l.remaining width = l.left + (rest.map width).sum := by rw [LaneCursor.remaining, hc]
    rw [h, hrem, LaneCursor.remaining]
    dsimp only
    omega

theorem LaneCursor.advance_of_done {l : LaneCursor} (hq : l.queue = []) : l.advance width d = l := by
  rw [LaneCursor.advance, hq]

/-- The time to the next event is at least one tick, and the event comes within the period. -/
theorem LanesRun.next_bounds (hr : LanesRun cfg width dealt lanes sum) (h : nextEvent lanes = some d) :
    0 < d ∧ sum + d < cfg.refreshPeriod := by
  obtain ⟨⟨l, hl, hq, rfl⟩, -⟩ := nextEvent_some h
  have hin := hr.inTime l hl
  have hle := LaneCursor.left_le_remaining (width := width) hq
  exact ⟨hr.live l hl hq, by omega⟩

/-- An event leaves the lanes of a build in progress. -/
theorem LanesRun.advance (hr : LanesRun cfg width dealt lanes sum) (hw : ∀ c ∈ dealt, 0 < width c)
    (h : nextEvent lanes = some d) : LanesRun cfg width dealt (lanes.map (LaneCursor.advance width d)) (sum + d) := by
  have hnow := (hr.next_bounds h).2
  obtain ⟨-, hmin⟩ := nextEvent_some h
  refine ⟨?live, ?dealt, hnow, ?inTime⟩
  all_goals
    intro l' hl'
    obtain ⟨l, hl, rfl⟩ := List.mem_map.mp hl'
  case live =>
    intro hq
    obtain ⟨he, ha⟩ | ⟨c, rest, hc, ⟨-, ha⟩ | ⟨hlt, ha⟩⟩ := l.advance_cases width d
    · exact absurd (by rw [ha, he]) hq
    · rw [ha] at hq ⊢
      refine LaneCursor.start_left_pos (fun x hx => hw x (hr.dealt l hl x ?_)) hq
      rw [hc]
      exact List.mem_cons_of_mem _ hx
    · rw [ha]
      exact Nat.sub_pos_of_lt hlt
  case dealt =>
    exact fun c hc => hr.dealt l hl c ((l.advance_queue_suffix width d).subset hc)
  case inTime =>
    by_cases hq : l.queue = []
    · have hzero : l.remaining width = 0 := by rw [LaneCursor.remaining, hq]
      rw [LaneCursor.advance_of_done hq, hzero]
      exact hnow
    · have hrem := LaneCursor.advance_remaining (width := width) (hmin l hl) hq
      have hin := hr.inTime l hl
      omega

/-! ## The range law -/

theorem padTicks_toNat (hp : cfg.refreshPeriod ≤ 65535) (hs : sum < cfg.refreshPeriod) :
    (padTicks cfg sum).toNat = cfg.refreshPeriod - sum := by
  rw [padTicks, BitVec.toNat_sub, BitVec.toNat_ofNat, BitVec.toNat_ofNat]
  omega

theorem totalTicks_nil : totalTicks [] = 0 := rfl

theorem totalTicks_cons (st : PulseStep) (steps : List PulseStep) :
    totalTicks (st :: steps) = st.ticks.toNat + totalTicks steps := by
  rw [totalTicks, List.map_cons, List.sum_cons, totalTicks]

/-- Every step lasts, and the steps fill what is left of the period (43_schedule_builder.md R120). -/
theorem Builds.fills (hb : Builds cfg width lanes mask sum steps) (hr : LanesRun cfg width dealt lanes sum)
    (hw : ∀ c ∈ dealt, 0 < width c) (hp : cfg.refreshPeriod ≤ 65535) :
    (∀ st ∈ steps, 1 ≤ st.ticks.toNat) ∧ sum + totalTicks steps = cfg.refreshPeriod := by
  induction hb with
  | @done lanes mask sum =>
    have hpad := padTicks_toNat hp hr.now
    have hnow := hr.now
    refine ⟨fun st hst => ?_, ?_⟩
    · rw [List.mem_singleton.mp hst]
      dsimp only
      omega
    · rw [totalTicks_cons, totalTicks_nil, hpad]
      omega
  | @event lanes mask sum d steps h _ ih =>
    obtain ⟨hpos, hlt⟩ := hr.next_bounds h
    obtain ⟨hticks, htotal⟩ := ih (hr.advance hw h)
    have hd : (BitVec.ofNat 16 d).toNat = d := by
      rw [BitVec.toNat_ofNat]
      omega
    refine ⟨fun st hst => ?_, ?_⟩
    · obtain rfl | hst := List.mem_cons.mp hst
      · dsimp only
        omega
      · exact hticks st hst
    · rw [totalTicks_cons, hd]
      omega

/-! ## The masks -/

theorem LaneCursor.headPin_of_queue {pin : Nat → PortMask} {l : LaneCursor} {c : Nat} {rest : List Nat}
    (h : l.queue = c :: rest) : l.headPin pin = pin c := by
  rw [LaneCursor.headPin, h]

/-- A lane toggles the pin that was high and the pin that is high (43_schedule_builder.md R117). -/
theorem LaneCursor.toggles_eq (pin : Nat → PortMask) (width : Nat → Nat) (d : Nat) (l : LaneCursor) :
    l.toggles pin width d = l.headPin pin ^^^ (l.advance width d).headPin pin := by
  rw [LaneCursor.toggles, LaneCursor.advance]
  cases hq : l.queue with
  | nil => dsimp only; rw [Nat.xor_self]
  | cons c rest =>
    dsimp only
    rw [LaneCursor.headPin_of_queue hq]
    split
    · rfl
    · exact (Nat.xor_self _).symm

theorem xorMasks_map_toggles (pin : Nat → PortMask) (width : Nat → Nat) (d : Nat) (lanes : List LaneCursor) :
    xorMasks (lanes.map (LaneCursor.toggles pin width d)) =
      xorMasks (lanes.map (LaneCursor.headPin pin)) ^^^
        xorMasks ((lanes.map (LaneCursor.advance width d)).map (LaneCursor.headPin pin)) := by
  induction lanes with
  | nil => exact (Nat.xor_self 0).symm
  | cons l lanes ih =>
    simp only [List.map_cons, xorMasks_cons, ih, LaneCursor.toggles_eq]
    ac_rfl

theorem xorMasks_headPin_of_done {pin : Nat → PortMask} (h : ∀ l ∈ lanes, l.queue = []) :
    xorMasks (lanes.map (LaneCursor.headPin pin)) = 0 := by
  induction lanes with
  | nil => rfl
  | cons l lanes ih =>
    have hhead : l.headPin pin = 0 := by rw [LaneCursor.headPin, h l (List.mem_cons_self ..)]
    rw [List.map_cons, xorMasks_cons, hhead, ih fun x hx => h x (List.mem_cons_of_mem _ hx)]
    rfl

/-- After the first event the steps toggle back exactly the pins that are high after it. -/
theorem Builds.xorMasks_eq (hb : Builds cfg width lanes mask sum steps) :
    xorMasks (steps.map PulseStep.mask) = mask ^^^ xorMasks (lanes.map (LaneCursor.headPin cfg.pinMask)) := by
  induction hb with
  | done h =>
    rw [xorMasks_headPin_of_done h]
    rfl
  | event _ _ ih =>
    rw [List.map_cons, xorMasks_cons, ih, xorMasks_map_toggles, Nat.xor_assoc, Nat.xor_self, Nat.xor_zero]

/-- A mask of dealt pins only: every bit of it is the pin of a dealt channel. -/
def WithinPins (cfg : Config) (dealt : List Nat) (m : PortMask) : Prop := m &&& orMasks (dealt.map cfg.pinMask) = m

theorem withinPins_zero : WithinPins cfg dealt 0 := Nat.zero_and _

theorem WithinPins.xor {m m' : PortMask} (h : WithinPins cfg dealt m) (h' : WithinPins cfg dealt m') :
    WithinPins cfg dealt (m ^^^ m') := by
  rw [WithinPins, Nat.and_xor_distrib_right, h, h']

theorem withinPins_pinMask {c : Nat} (hc : c ∈ dealt) : WithinPins cfg dealt (cfg.pinMask c) := by
  apply Nat.eq_of_testBit_eq
  intro b
  rw [Nat.testBit_and, Bool.and_eq_left_iff_imp]
  exact fun hb => (testBit_orMasks _ _).mpr ⟨_, List.mem_map_of_mem hc, hb⟩

theorem withinPins_xorMasks {ms : List PortMask} (h : ∀ m ∈ ms, WithinPins cfg dealt m) :
    WithinPins cfg dealt (xorMasks ms) := by
  induction ms with
  | nil => exact withinPins_zero
  | cons m ms ih =>
    exact (h m (List.mem_cons_self ..)).xor (ih fun x hx => h x (List.mem_cons_of_mem _ hx))

theorem withinPins_headPin {l : LaneCursor} (h : ∀ c ∈ l.queue, c ∈ dealt) :
    WithinPins cfg dealt (l.headPin cfg.pinMask) := by
  cases hq : l.queue with
  | nil => rw [LaneCursor.headPin, hq]; exact withinPins_zero
  | cons c rest =>
    rw [LaneCursor.headPin_of_queue hq]
    exact withinPins_pinMask (h c (by rw [hq]; exact List.mem_cons_self ..))

theorem withinPins_heads (h : ∀ l ∈ lanes, ∀ c ∈ l.queue, c ∈ dealt) :
    WithinPins cfg dealt (xorMasks (lanes.map (LaneCursor.headPin cfg.pinMask))) := by
  refine withinPins_xorMasks fun m hm => ?_
  obtain ⟨l, hl, rfl⟩ := List.mem_map.mp hm
  exact withinPins_headPin (h l hl)

/-- The steps toggle only pins of dealt channels (43_schedule_builder.md R120). -/
theorem Builds.withinPins (hb : Builds cfg width lanes mask sum steps) (hd : ∀ l ∈ lanes, ∀ c ∈ l.queue, c ∈ dealt)
    (hm : WithinPins cfg dealt mask) : ∀ st ∈ steps, WithinPins cfg dealt st.mask := by
  induction hb with
  | done => exact fun st hst => List.mem_singleton.mp hst ▸ hm
  | @event lanes mask sum d steps _ _ ih =>
    have hd' : ∀ l ∈ lanes.map (LaneCursor.advance width d), ∀ c ∈ l.queue, c ∈ dealt := by
      intro l' hl' c hc
      obtain ⟨l, hl, rfl⟩ := List.mem_map.mp hl'
      exact hd l hl c ((l.advance_queue_suffix width d).subset hc)
    have hrest := ih hd' (xorMasks_map_toggles .. ▸ (withinPins_heads hd).xor (withinPins_heads hd'))
    intro st hst
    obtain rfl | hst := List.mem_cons.mp hst
    · exact hm
    · exact hrest st hst

end run

end Sys2Proof.Machine
end

section
/-! The pulse law (43_schedule_builder.md R121): when a lane toggles a channel's pin, and so when a build does. -/

namespace Sys2Proof.Machine

/-! ## One lane -/

/-- The times at which a lane whose channels start at `t`, in this order, toggles channel `c`. -/
def queueToggles (width : Nat → Nat) (c : Nat) : Nat → List Nat → List Nat
  | _, [] => []
  | t, x :: rest => if x = c then [t, t + width c] else queueToggles width c (t + width x) rest

/-- The times after `t` at which a lane that is as it stands at `t` toggles channel `c`. -/
def LaneCursor.togglesFrom (width : Nat → Nat) (c t : Nat) (l : LaneCursor) : List Nat :=
  match l.queue with
  | [] => []
  | x :: rest => if x = c then [t + l.left] else queueToggles width c (t + l.left) rest

section lane
variable {width : Nat → Nat} {c t d b : Nat} {l : LaneCursor}

theorem queueToggles_of_notMem {q : List Nat} (h : c ∉ q) : queueToggles width c t q = [] := by
  induction q generalizing t with
  | nil => rfl
  | cons x rest ih =>
    obtain ⟨hx, hrest⟩ := not_or.mp (mt List.mem_cons.mpr h)
    rw [queueToggles, if_neg (Ne.symm hx), ih hrest]

/-- The channel starts when the channels before it in the lane have ended, and ends its width later. -/
theorem queueToggles_append_cons {before : List Nat} (h : c ∉ before) (after : List Nat) :
    queueToggles width c t (before ++ c :: after) =
      [t + (before.map width).sum, t + (before.map width).sum + width c] := by
  induction before generalizing t with
  | nil => rw [List.nil_append, queueToggles, if_pos rfl]; rfl
  | cons x rest ih =>
    obtain ⟨hx, hrest⟩ := not_or.mp (mt List.mem_cons.mpr h)
    rw [List.cons_append, queueToggles, if_neg (Ne.symm hx), ih hrest, List.map_cons, List.sum_cons, Nat.add_assoc t]

theorem LaneCursor.togglesFrom_of_notMem (h : c ∉ l.queue) : l.togglesFrom width c t = [] := by
  rw [LaneCursor.togglesFrom]
  cases hq : l.queue with
  | nil => rfl
  | cons x rest =>
    rw [hq] at h
    obtain ⟨hx, hrest⟩ := not_or.mp (mt List.mem_cons.mpr h)
    dsimp only
    rw [if_neg (Ne.symm hx), queueToggles_of_notMem hrest]

theorem LaneCursor.togglesFrom_cons {x : Nat} {rest : List Nat} (hq : l.queue = x :: rest) :
    l.togglesFrom width c t = if x = c then [t + l.left] else queueToggles width c (t + l.left) rest := by
  rw [LaneCursor.togglesFrom, hq]

/-- A lane that starts toggles its first channel at once. -/
theorem queueToggles_eq_start (q : List Nat) :
    queueToggles width c t q =
      (if q.head? = some c then [t] else []) ++ (LaneCursor.start width q).togglesFrom width c t := by
  cases q with
  | nil => rfl
  | cons x rest =>
    rw [LaneCursor.togglesFrom_cons (LaneCursor.start_queue ..), queueToggles, List.head?_cons]
    by_cases hx : x = c
    · subst hx
      rw [if_pos rfl, if_pos rfl, if_pos rfl]
      rfl
    · rw [if_neg hx, if_neg (mt Option.some.inj hx), if_neg hx]
      rfl

/-- Among channels with pins of their own, a lane's high pin is its first channel's. -/
theorem LaneCursor.testBit_headPin {pin : Nat → PortMask} (hpin : ∀ x ∈ l.queue, (pin x).testBit b = decide (x = c)) :
    (l.headPin pin).testBit b = decide (l.queue.head? = some c) := by
  cases hq : l.queue with
  | nil => rw [LaneCursor.headPin, hq]; simp
  | cons x rest =>
    rw [LaneCursor.headPin_of_queue hq, hpin x (by rw [hq]; exact List.mem_cons_self ..)]
    simp

/-- A lane that does not hold the channel does not have its pin high. -/
theorem LaneCursor.testBit_headPin_of_notMem {pin : Nat → PortMask}
    (hpin : ∀ x ∈ l.queue, (pin x).testBit b = decide (x = c)) (h : c ∉ l.queue) :
    (l.headPin pin).testBit b = false := by
  rw [LaneCursor.testBit_headPin hpin]
  exact decide_eq_false fun he => h (List.mem_of_head? he)

/-- A lane that does not hold the channel does not toggle its pin. -/
theorem LaneCursor.testBit_toggles_of_notMem {pin : Nat → PortMask}
    (hpin : ∀ x ∈ l.queue, (pin x).testBit b = decide (x = c)) (h : c ∉ l.queue) :
    (l.toggles pin width d).testBit b = false := by
  have hsub := (l.advance_queue_suffix width d).subset
  rw [LaneCursor.toggles_eq, Nat.testBit_xor, LaneCursor.testBit_headPin_of_notMem hpin h,
    LaneCursor.testBit_headPin_of_notMem (fun x hx => hpin x (hsub hx)) (mt (hsub ·) h)]
  rfl

/-- Time splits the lane's toggles: one at the next event if the event toggles the pin, and those after it. -/
theorem LaneCursor.togglesFrom_advance {pin : Nat → PortMask} (hnd : l.queue.Nodup)
    (hpin : ∀ x ∈ l.queue, (pin x).testBit b = decide (x = c)) (hd : l.queue ≠ [] → d ≤ l.left) :
    l.togglesFrom width c t =
      (if (l.toggles pin width d).testBit b then [t + d] else []) ++
        (l.advance width d).togglesFrom width c (t + d) := by
  have hsub := (l.advance_queue_suffix width d).subset
  rw [LaneCursor.toggles_eq, Nat.testBit_xor, LaneCursor.testBit_headPin hpin,
    LaneCursor.testBit_headPin fun x hx => hpin x (hsub hx)]
  obtain ⟨hq, ha⟩ | ⟨x, rest, hq, ⟨hle, ha⟩ | ⟨hlt, ha⟩⟩ := l.advance_cases width d
  · rw [ha, Bool.xor_self, LaneCursor.togglesFrom, LaneCursor.togglesFrom, hq]
    rfl
  · have hleft : l.left = d := Nat.le_antisymm hle (hd (hq ▸ List.cons_ne_nil x rest))
    rw [hq] at hnd
    obtain ⟨hx, -⟩ := List.nodup_cons.mp hnd
    rw [ha, LaneCursor.togglesFrom_cons hq, hleft, hq, LaneCursor.start_queue, List.head?_cons]
    by_cases hxc : x = c
    · subst hxc
      have hhead : rest.head? ≠ some x := fun he => hx (List.mem_of_head? he)
      have hnone : (LaneCursor.start width rest).togglesFrom width x (t + d) = [] :=
        LaneCursor.togglesFrom_of_notMem (by rw [LaneCursor.start_queue]; exact hx)
      simp [hhead, hnone]
    · rw [if_neg hxc, queueToggles_eq_start]
      simp [hxc]
  · have hsum : t + d + (l.left - d) = t + l.left := by omega
    rw [ha, hq, Bool.xor_self, LaneCursor.togglesFrom_cons hq, LaneCursor.togglesFrom_cons rfl]
    dsimp only
    rw [hsum]
    rfl

end lane

/-! ## All lanes -/

section lanes
variable {cfg : Config} {width : Nat → Nat} {dealt : List Nat} {mask : PortMask} {sum c b : Nat}
  {steps : List PulseStep}

theorem toggleTimes_cons (b t : Nat) (st : PulseStep) (rest : List PulseStep) :
    toggleTimes (2 ^ b) t (st :: rest) =
      (if st.mask.testBit b then [t] else []) ++ toggleTimes (2 ^ b) (t + st.ticks.toNat) rest := by
  rw [toggleTimes]
  simp only [and_two_pow_eq_zero_iff]
  cases st.mask.testBit b <;> rfl

/-- In the XOR over the lanes only the lane that holds the channel counts. -/
theorem testBit_xorMasks_lanes {f : LaneCursor → PortMask} {before after : List LaneCursor} {l : LaneCursor}
    (h : ∀ x ∈ before ++ after, (f x).testBit b = false) :
    (xorMasks ((before ++ l :: after).map f)).testBit b = (f l).testBit b := by
  have hzero {ls : List LaneCursor} (hs : ∀ x ∈ ls, x ∈ before ++ after) :
      (xorMasks (ls.map f)).testBit b = false := by
    refine testBit_xorMasks_eq_false fun m hm => ?_
    obtain ⟨x, hx, rfl⟩ := List.mem_map.mp hm
    exact h x (hs x hx)
  rw [List.map_append, List.map_cons, xorMasks_append, Nat.testBit_xor, testBit_xorMasks_cons,
    hzero fun _ => List.mem_append_left _, hzero fun _ => List.mem_append_right _]
  simp

/-- The steps of a build toggle a pin when the one lane that may hold its channel does. -/
theorem Builds.toggleTimes_eq {lanes before after : List LaneCursor} {l : LaneCursor}
    (hb : Builds cfg width lanes mask sum steps) (hl : lanes = before ++ l :: after)
    (hr : LanesRun cfg width dealt lanes sum) (hw : ∀ x ∈ dealt, 0 < width x) (hp : cfg.refreshPeriod ≤ 65535)
    (hpin : ∀ x ∈ dealt, (cfg.pinMask x).testBit b = decide (x = c)) (hnd : l.queue.Nodup)
    (hother : ∀ x ∈ before ++ after, c ∉ x.queue) :
    toggleTimes (2 ^ b) sum steps = (if mask.testBit b then [sum] else []) ++ l.togglesFrom width c sum := by
  induction hb generalizing before after l with
  | done h =>
    have hq : c ∉ l.queue := by
      rw [h l (by rw [hl]; exact List.mem_append_right _ (List.mem_cons_self ..))]
      exact List.not_mem_nil
    rw [toggleTimes_cons, LaneCursor.togglesFrom_of_notMem hq]
    rfl
  | @event lanes mask sum d steps h _ ih =>
    subst hl
    obtain ⟨-, hmin⟩ := nextEvent_some h
    have hmem : l ∈ before ++ l :: after := List.mem_append_right _ (List.mem_cons_self ..)
    have hsub : ∀ x ∈ before ++ after, x ∈ before ++ l :: after := fun x hx =>
      (List.mem_append.mp hx).elim (List.mem_append_left _)
        fun hx => List.mem_append_right _ (List.mem_cons_of_mem _ hx)
    have hpinOf {x : LaneCursor} (hx : x ∈ before ++ l :: after) :
        ∀ y ∈ x.queue, (cfg.pinMask y).testBit b = decide (y = c) := fun y hy => hpin y (hr.dealt x hx y hy)
    have hlt := (hr.next_bounds h).2
    have hticks : (BitVec.ofNat 16 d).toNat = d := by
      rw [BitVec.toNat_ofNat]
      omega
    have hbit : (xorMasks ((before ++ l :: after).map (LaneCursor.toggles cfg.pinMask width d))).testBit b =
        (l.toggles cfg.pinMask width d).testBit b :=
      testBit_xorMasks_lanes fun x hx => LaneCursor.testBit_toggles_of_notMem (hpinOf (hsub x hx)) (hother x hx)
    have hrest := ih (before := before.map (LaneCursor.advance width d)) (l := l.advance width d)
      (after := after.map (LaneCursor.advance width d)) (by rw [List.map_append, List.map_cons])
      (hr.advance hw h) (hnd.sublist (l.advance_queue_suffix width d).sublist) (by
        intro x' hx'
        rw [← List.map_append] at hx'
        obtain ⟨x, hx, rfl⟩ := List.mem_map.mp hx'
        exact mt ((x.advance_queue_suffix width d).subset ·) (hother x hx))
    rw [toggleTimes_cons, hticks, hrest, hbit, ← LaneCursor.togglesFrom_advance hnd (hpinOf hmem) (hmin l hmem)]

end lanes

end Sys2Proof.Machine
end

section
/-! The lanes a build starts from (43_schedule_builder.md R115, R116), and the laws of the schedules built. -/

namespace Sys2Proof.Machine

/-! ## Dealing the channels -/

theorem mem_laneChannels {kLanes : Nat} {dealt : List Nat} {k c : Nat} :
    c ∈ laneChannels kLanes dealt k ↔ ∃ j, dealt[j]? = some c ∧ j % kLanes = k := by
  simp [laneChannels, List.mem_zipIdx_iff_getElem?]

theorem laneChannels_sublist (kLanes : Nat) (dealt : List Nat) (k : Nat) :
    (laneChannels kLanes dealt k).Sublist dealt := by
  have h := (List.filter_sublist (p := fun x : Nat × Nat => x.2 % kLanes == k) (l := dealt.zipIdx)).map Prod.fst
  rwa [List.zipIdx_map_fst] at h

/-- A lane gets every `kLanes`-th channel, so at most the quotient rounded up (43_schedule_builder.md R115). -/
theorem laneChannels_length_le {kLanes k : Nat} (hk : k < kLanes) (dealt : List Nat) :
    (laneChannels kLanes dealt k).length ≤ ceilDiv dealt.length kLanes := by
  have hpos : 0 < kLanes := Nat.zero_lt_of_lt hk
  have hcount : (laneChannels kLanes dealt k).length = dealt.length.count (· ≡ k [MOD kLanes]) := by
    have hsnd : List.range dealt.length = dealt.zipIdx.map Prod.snd := by
      rw [List.zipIdx_map_snd, List.range_eq_range']
    rw [laneChannels, List.length_map, ← List.countP_eq_length_filter, Nat.count, hsnd, List.countP_map]
    refine List.countP_congr fun x _ => ?_
    simp [Nat.ModEq, Nat.mod_eq_of_lt hk]
  rw [hcount, Nat.count_modEq_card dealt.length hpos, ceilDiv]
  have hdiv := Nat.div_add_mod dealt.length kLanes
  split
  next hlt =>
    rw [Nat.le_div_iff_mul_le hpos, Nat.add_mul, Nat.mul_comm, Nat.one_mul]
    omega
  next => exact Nat.div_le_div_right (by omega)

theorem ceilDiv_le_ceilDiv {m n : Nat} (h : m ≤ n) (k : Nat) : ceilDiv m k ≤ ceilDiv n k :=
  Nat.div_le_div_right (by omega)

/-- The channels before the `j`-th in its lane, and those after it. -/
theorem laneChannels_split {kLanes j c : Nat} {dealt : List Nat} (hj : dealt[j]? = some c) :
    ∃ before after, laneChannels kLanes dealt (j % kLanes) = before ++ c :: after ∧
      before = ((dealt.zipIdx.filter (fun x => x.2 % kLanes == j % kLanes && decide (x.2 < j))).map Prod.fst) := by
  obtain ⟨hlt, hc⟩ := List.getElem?_eq_some_iff.mp hj
  have hsplit : dealt = dealt.take j ++ c :: dealt.drop (j + 1) := by
    rw [← hc, ← List.drop_eq_getElem_cons hlt, List.take_append_drop]
  have hlen : (dealt.take j).length = j := by rw [List.length_take]; omega
  have hzip : dealt.zipIdx = (dealt.take j).zipIdx ++ (c, j) :: (dealt.drop (j + 1)).zipIdx (j + 1) := by
    conv_lhs => rw [hsplit]
    rw [List.zipIdx_append, List.zipIdx_cons, hlen, Nat.zero_add]
  have hbefore : (dealt.take j).zipIdx.filter (fun x => x.2 % kLanes == j % kLanes && decide (x.2 < j)) =
      (dealt.take j).zipIdx.filter (fun x => x.2 % kLanes == j % kLanes) := by
    refine List.filter_congr fun x hx => ?_
    have hlt : x.2 < j := by
      have := List.snd_lt_of_mem_zipIdx hx
      omega
    rw [decide_eq_true hlt, Bool.and_true]
  have hafter : ((dealt.drop (j + 1)).zipIdx (j + 1)).filter
      (fun x => x.2 % kLanes == j % kLanes && decide (x.2 < j)) = [] := by
    refine List.filter_eq_nil_iff.mpr fun x hx => ?_
    have hle := List.le_snd_of_mem_zipIdx hx
    simp [Nat.le_of_lt hle]
  refine ⟨_, (((dealt.drop (j + 1)).zipIdx (j + 1)).filter (fun x => x.2 % kLanes == j % kLanes)).map Prod.fst,
    ?_, rfl⟩
  rw [laneChannels, hzip, List.filter_append, List.filter_append, List.filter_cons_of_pos (by simp),
    List.filter_cons_of_neg (by simp), hbefore, hafter, List.append_nil, List.map_append, List.map_cons]

end Sys2Proof.Machine
end

section
/-! The schedules that `Build` answers for an admitted configuration and channels in bounds (43_schedule_builder.md
R119 to R121). -/

namespace Sys2Proof.Machine

/-- Every channel dealt is in one lane (43_schedule_builder.md R115). -/
theorem sum_laneChannels_length {kLanes : Nat} (hk : 0 < kLanes) (dealt : List Nat) :
    ((List.range kLanes).map (fun k => (laneChannels kLanes dealt k).length)).sum = dealt.length := by
  have hlen (k : Nat) : (laneChannels kLanes dealt k).length =
      Multiset.count k (dealt.zipIdx.map (fun x => x.2 % kLanes) : Multiset Nat) := by
    rw [laneChannels, List.length_map, ← List.countP_eq_length_filter, Multiset.coe_count, List.count, List.countP_map]
    rfl
  have hsum : ∑ k ∈ Finset.range kLanes, Multiset.count k (dealt.zipIdx.map (fun x => x.2 % kLanes) : Multiset Nat) =
      dealt.length := by
    rw [Multiset.sum_count_eq_card, Multiset.coe_card, List.length_map, List.length_zipIdx]
    intro a ha
    obtain ⟨x, -, rfl⟩ := List.mem_map.mp (Multiset.mem_coe.mp ha)
    exact Finset.mem_range.mpr (Nat.mod_lt _ hk)
  simp only [hlen]
  exact hsum

section build
variable {cfg : Config} {srv : List Servo}

/-- Lane `k` at the period boundary (43_schedule_builder.md R116). -/
def startLane (cfg : Config) (srv : List Servo) (k : Nat) : LaneCursor :=
  LaneCursor.start (pulseWidth srv) (laneChannels cfg.kLanes (dealtChannels cfg srv) k)

theorem startLanes_eq : startLanes cfg srv = (List.range cfg.kLanes).map (startLane cfg srv) := rfl

@[simp] theorem startLane_queue (k : Nat) :
    (startLane cfg srv k).queue = laneChannels cfg.kLanes (dealtChannels cfg srv) k :=
  LaneCursor.start_queue ..

theorem pendingChannels_startLanes (hk : 0 < cfg.kLanes) :
    pendingChannels (startLanes cfg srv) = (dealtChannels cfg srv).length := by
  rw [← sum_laneChannels_length hk, pendingChannels, startLanes_eq, List.map_map]
  simp only [Function.comp_def, startLane_queue]

/-- `Build` runs the builder to its end. -/
theorem builds_scheduleSteps (hk : 0 < cfg.kLanes) :
    Builds cfg (pulseWidth srv) (startLanes cfg srv)
      (xorMasks ((startLanes cfg srv).map (LaneCursor.headPin cfg.pinMask))) 0 (scheduleSteps cfg srv) :=
  builds_buildSteps _ _ (pendingChannels_startLanes hk).le _ _

theorem mem_startLanes {l : LaneCursor} (h : l ∈ startLanes cfg srv) :
    ∃ k < cfg.kLanes, l = startLane cfg srv k := by
  obtain ⟨k, hk, rfl⟩ := List.mem_map.mp h
  exact ⟨k, List.mem_range.mp hk, rfl⟩

theorem startLanes_dealt : ∀ l ∈ startLanes cfg srv, ∀ c ∈ l.queue, c ∈ dealtChannels cfg srv := by
  intro l hl c hc
  obtain ⟨k, -, rfl⟩ := mem_startLanes hl
  rw [startLane_queue] at hc
  exact (laneChannels_sublist ..).subset hc

theorem scheduleSteps_withinPins (hk : 0 < cfg.kLanes) :
    ∀ st ∈ scheduleSteps cfg srv, WithinPins cfg (dealtChannels cfg srv) st.mask :=
  (builds_scheduleSteps hk).withinPins startLanes_dealt (withinPins_heads startLanes_dealt)

/-- A schedule toggles every pin back (10_state.md R53(e)). -/
theorem xorMasks_scheduleSteps (hk : 0 < cfg.kLanes) :
    xorMasks ((scheduleSteps cfg srv).map PulseStep.mask) = 0 := by
  rw [(builds_scheduleSteps hk).xorMasks_eq, Nat.xor_self]

/-- The channels of a configuration lie in the pulse bounds (10_state.md R53(b)). -/
theorem pulseWidth_bounds (hlen : srv.length = cfg.nServo) (hb : ∀ x ∈ srv, x.InBounds cfg) {c : Nat}
    (hc : c < cfg.nServo) : cfg.minPulse ≤ pulseWidth srv c ∧ pulseWidth srv c ≤ cfg.maxPulse := by
  have hget := List.getElem?_eq_getElem (l := srv) (i := c) (by omega)
  rw [pulseWidth, servoAt_of_get hget]
  exact hb _ (List.getElem_mem _)

section admitted
variable (ha : Admitted cfg) (hlen : srv.length = cfg.nServo) (hb : ∀ x ∈ srv, x.InBounds cfg)
include ha hlen hb

theorem pulseWidth_pos {c : Nat} (hc : c ∈ dealtChannels cfg srv) : 0 < pulseWidth srv c :=
  (one_le_minPulse ha).trans (pulseWidth_bounds hlen hb (mem_dealtChannels.mp hc).1).1

/-- The pulses of one lane end before the period does (00_scope.md R6; 43_schedule_builder.md R120). -/
theorem sum_lane_widths_lt {k : Nat} (hk : k < cfg.kLanes) :
    ((laneChannels cfg.kLanes (dealtChannels cfg srv) k).map (pulseWidth srv)).sum < cfg.refreshPeriod := by
  have hmax : ∀ w ∈ (laneChannels cfg.kLanes (dealtChannels cfg srv) k).map (pulseWidth srv), w ≤ cfg.maxPulse := by
    intro w hw
    obtain ⟨c, hc, rfl⟩ := List.mem_map.mp hw
    exact (pulseWidth_bounds hlen hb (mem_dealtChannels.mp ((laneChannels_sublist ..).subset hc)).1).2
  have hlane : (laneChannels cfg.kLanes (dealtChannels cfg srv) k).length ≤ ceilDiv cfg.nServo cfg.kLanes :=
    (laneChannels_length_le hk _).trans (ceilDiv_le_ceilDiv (dealtChannels_length_le ..) _)
  calc ((laneChannels cfg.kLanes (dealtChannels cfg srv) k).map (pulseWidth srv)).sum
      ≤ (laneChannels cfg.kLanes (dealtChannels cfg srv) k).length * cfg.maxPulse := by
        simpa using List.sum_le_card_nsmul _ _ hmax
    _ ≤ ceilDiv cfg.nServo cfg.kLanes * cfg.maxPulse := Nat.mul_le_mul_right _ hlane
    _ < cfg.refreshPeriod := ceilDiv_mul_maxPulse_lt ha

theorem lanesRun_startLanes :
    LanesRun cfg (pulseWidth srv) (dealtChannels cfg srv) (startLanes cfg srv) 0 where
  live l hl hq := by
    obtain ⟨k, -, rfl⟩ := mem_startLanes hl
    exact LaneCursor.start_left_pos (fun c hc => pulseWidth_pos ha hlen hb ((laneChannels_sublist ..).subset hc)) hq
  dealt := startLanes_dealt
  now := refreshPeriod_pos ha
  inTime l hl := by
    obtain ⟨k, hk, rfl⟩ := mem_startLanes hl
    rw [startLane, LaneCursor.remaining_start, Nat.zero_add]
    exact sum_lane_widths_lt ha hlen hb hk

theorem scheduleSteps_fills :
    (∀ st ∈ scheduleSteps cfg srv, 1 ≤ st.ticks.toNat) ∧ totalTicks (scheduleSteps cfg srv) = cfg.refreshPeriod := by
  have h := (builds_scheduleSteps (one_le_kLanes ha)).fills (lanesRun_startLanes ha hlen hb)
    (fun _ => pulseWidth_pos ha hlen hb) (refreshPeriod_le ha)
  rwa [Nat.zero_add] at h

/-- A channel's pin is toggled when its lane, run from its first channel, toggles it. -/
theorem toggleTimes_scheduleSteps {c b k : Nat} (hbit : IsPinBit cfg c b) (hk : k < cfg.kLanes)
    (hother : ∀ k', k' ≠ k → c ∉ laneChannels cfg.kLanes (dealtChannels cfg srv) k') :
    toggleTimes (cfg.pinMask c) 0 (scheduleSteps cfg srv) =
      queueToggles (pulseWidth srv) c 0 (laneChannels cfg.kLanes (dealtChannels cfg srv) k) := by
  obtain ⟨before, after, hrange⟩ := List.append_of_mem (List.mem_range.mpr hk)
  have hne : ∀ k' ∈ before ++ after, k' ≠ k := by
    have hnd := List.nodup_range (n := cfg.kLanes)
    rw [hrange] at hnd
    exact fun k' hk' he => (List.nodup_middle.mp hnd).notMem (he ▸ hk')
  have hpin : ∀ x ∈ dealtChannels cfg srv, (cfg.pinMask x).testBit b = decide (x = c) :=
    fun x hx => hbit.others x (mem_dealtChannels.mp hx).1
  have hpinOf : ∀ k, ∀ x ∈ (startLane cfg srv k).queue, (cfg.pinMask x).testBit b = decide (x = c) := by
    intro k x hx
    rw [startLane_queue] at hx
    exact hpin x ((laneChannels_sublist ..).subset hx)
  have hlanes : startLanes cfg srv =
      before.map (startLane cfg srv) ++ startLane cfg srv k :: after.map (startLane cfg srv) := by
    rw [startLanes_eq, hrange, List.map_append, List.map_cons]
  have hout : ∀ l ∈ before.map (startLane cfg srv) ++ after.map (startLane cfg srv),
      c ∉ l.queue ∧ (l.headPin cfg.pinMask).testBit b = false := by
    intro l hl
    rw [← List.map_append] at hl
    obtain ⟨k', hk', rfl⟩ := List.mem_map.mp hl
    have hnot : c ∉ (startLane cfg srv k').queue := startLane_queue (cfg := cfg) k' ▸ hother k' (hne k' hk')
    exact ⟨hnot, LaneCursor.testBit_headPin_of_notMem (hpinOf k') hnot⟩
  have hnd : (startLane cfg srv k).queue.Nodup := by
    rw [startLane_queue]
    exact (dealtChannels_nodup ..).sublist (laneChannels_sublist ..)
  have hfirst : (xorMasks ((startLanes cfg srv).map (LaneCursor.headPin cfg.pinMask))).testBit b =
      decide ((laneChannels cfg.kLanes (dealtChannels cfg srv) k).head? = some c) := by
    rw [hlanes, testBit_xorMasks_lanes fun l hl => (hout l hl).2, LaneCursor.testBit_headPin (hpinOf k),
      startLane_queue]
  rw [hbit.mask, (builds_scheduleSteps (one_le_kLanes ha)).toggleTimes_eq hlanes (lanesRun_startLanes ha hlen hb)
    (fun _ => pulseWidth_pos ha hlen hb) (refreshPeriod_le ha) hpin hnd fun l hl => (hout l hl).1,
    queueToggles_eq_start, hfirst]
  simp only [decide_eq_true_eq]
  rfl

/-- A channel not dealt is never toggled (43_schedule_builder.md R121). -/
theorem toggleTimes_of_not_dealt {c : Nat} (hc : c < cfg.nServo) (hnot : c ∉ dealtChannels cfg srv) :
    toggleTimes (cfg.pinMask c) 0 (scheduleSteps cfg srv) = [] := by
  obtain ⟨b, hbit⟩ := exists_isPinBit ha hc
  have hout (k : Nat) : c ∉ laneChannels cfg.kLanes (dealtChannels cfg srv) k :=
    fun h => hnot ((laneChannels_sublist ..).subset h)
  rw [toggleTimes_scheduleSteps ha hlen hb hbit (one_le_kLanes ha) fun k _ => hout k, queueToggles_of_notMem (hout 0)]

/-- A dealt channel is toggled at its start and its width later (43_schedule_builder.md R121). -/
theorem toggleTimes_of_dealt {j c : Nat} (hj : (dealtChannels cfg srv)[j]? = some c) :
    toggleTimes (cfg.pinMask c) 0 (scheduleSteps cfg srv) =
      [startTime cfg srv j, startTime cfg srv j + pulseWidth srv c] := by
  obtain ⟨b, hbit⟩ := exists_isPinBit ha (mem_dealtChannels.mp (List.mem_of_getElem? hj)).1
  have hlane : j % cfg.kLanes < cfg.kLanes := Nat.mod_lt _ (one_le_kLanes ha)
  have hother : ∀ k, k ≠ j % cfg.kLanes → c ∉ laneChannels cfg.kLanes (dealtChannels cfg srv) k := by
    intro k hk hmem
    obtain ⟨j', hj', rfl⟩ := mem_laneChannels.mp hmem
    obtain ⟨hlt, -⟩ := List.getElem?_eq_some_iff.mp hj
    have hjj : j = j' := (List.getElem?_inj hlt (dealtChannels_nodup cfg srv)).mp (hj.trans hj'.symm)
    exact hk (congrArg (· % cfg.kLanes) hjj.symm)
  obtain ⟨before, after, hsplit, hbefore⟩ := laneChannels_split (kLanes := cfg.kLanes) hj
  have hnotin : c ∉ before := by
    have hnd := (dealtChannels_nodup cfg srv).sublist (laneChannels_sublist cfg.kLanes _ (j % cfg.kLanes))
    rw [hsplit] at hnd
    exact fun h => (List.nodup_middle.mp hnd).notMem (List.mem_append_left _ h)
  have hstart : startTime cfg srv j = (before.map (pulseWidth srv)).sum := by
    rw [hbefore, List.map_map, startTime]
    rfl
  rw [toggleTimes_scheduleSteps ha hlen hb hbit hlane hother, hsplit, queueToggles_append_cons hnotin, hstart,
    Nat.zero_add]

end admitted

end build

/-- Settles O38: the number of steps is bounded by the fuel, and the rest holds along the builder's run. -/
theorem builtScheduleFillsTheRefreshPeriod : Obligations.BuiltScheduleFillsTheRefreshPeriod := by
  intro cfg srv ha hlen hb
  obtain ⟨hticks, htotal⟩ := scheduleSteps_fills ha hlen hb
  exact ⟨List.length_pos_iff.mpr (buildSteps_ne_nil _ _ _ _ _ _), buildSteps_length_le ..,
    Nat.succ_le_succ (dealtChannels_length_le ..), hticks, htotal, scheduleSteps_withinPins (one_le_kLanes ha)⟩

/-- Settles O39: a channel's pin is toggled as its lane, run alone, toggles it. -/
theorem eachDealtChannelPulsesForItsWidth : Obligations.EachDealtChannelPulsesForItsWidth :=
  fun _ _ ha hlen hb =>
    ⟨fun _ _ hj => toggleTimes_of_dealt ha hlen hb hj, fun _ hc hnot => toggleTimes_of_not_dealt ha hlen hb hc hnot⟩

/-- Settles O40: among the enabled channels' pins only the channel's own has its bit. -/
theorem driveMaskHoldsTheEnabledPins : Obligations.DriveMaskHoldsTheEnabledPins := by
  intro cfg srv c ha hc
  obtain ⟨b, hbit⟩ := exists_isPinBit ha hc
  rw [hbit.mask, ne_eq, and_two_pow_eq_zero_iff, Bool.not_eq_false, scheduleDrive, testBit_orMasks]
  constructor
  · rintro ⟨m, hm, hmb⟩
    obtain ⟨d, hd, rfl⟩ := List.mem_map.mp hm
    obtain ⟨hd, hen⟩ := List.mem_filter.mp hd
    rw [hbit.others d (List.mem_range.mp hd), decide_eq_true_eq] at hmb
    exact hmb ▸ hen
  · intro hen
    refine ⟨_, List.mem_map_of_mem (List.mem_filter.mpr ⟨List.mem_range.mpr hc, hen⟩), ?_⟩
    rw [hbit.mask, Nat.testBit_two_pow_self]

/-- What a successful publish leaves in the standby buffer (44_servo_output.md R127). -/
theorem exec_srvPost_standby {s t : State} (hr : taskReady s = true) (hp : s.sched.nextPending = false)
    (h : exec .srvPost s = .next t) :
    t.sched.standby = s.sched.standby.load (scheduleSteps s.cfg s.srv) (scheduleDrive s.cfg s.srv) := by
  obtain ⟨hd, he⟩ := (taskReady_iff s).mp hr
  rw [exec, execSrvPost_free hd he hp] at h
  cases h
  exact Sched.publish_standby ..

/-- Settles O41: what a publish loads is a function of the configuration and the channels. -/
theorem publishDependsOnlyOnTheConfiguration : Obligations.PublishDependsOnlyOnTheConfiguration := by
  intro s s' t t' hcfg hsrv hp hp' hr hr' h h'
  rw [exec_srvPost_standby hr hp h, exec_srvPost_standby hr' hp' h', hcfg, hsrv]
  exact ⟨rfl, rfl, by simp only [Buffer.load_len, Buffer.load_take]⟩

end Sys2Proof.Machine
end

section
/-! Enabling and the choice of the next move (60_exceptions.md R145 to R147): which steps are enabled, which offer a
step takes, and what it does when it takes none. -/

namespace Sys2Proof.Machine

/-! ## Every instruction answers -/

theorem setChannel_answers (ch : Channel) (f : Servo → Servo) (s : State) : ∃ t, setChannel ch f s = .next t := by
  unfold setChannel
  split <;> exact takeIf_answers ..

theorem execSrvPost_answers (s : State) : ∃ t, execSrvPost s = .next t := by
  unfold execSrvPost
  split <;> exact takeIf_answers ..

/-- Reset apart, every instruction answers a next state (60_exceptions.md R137). -/
theorem exec_answers {i : Instr} (hi : i ≠ .evReset) (s : State) : ∃ t, exec i s = .next t := by
  cases i with
  | srvSet ch v a =>
    rw [exec, execSrvSet]
    exact setChannel_answers ..
  | cfgEnable ch en =>
    rw [exec, execCfgEnable]
    exact setChannel_answers ..
  | srvPost => exact execSrvPost_answers s
  | evReset => exact absurd rfl hi
  | _ => exact ⟨_, rfl⟩

/-- Reset of an admitted configuration completes (70_reset_and_hazards.md R161). -/
theorem exec_evReset {s : State} (ha : Admitted s.cfg) : exec .evReset s = .next (resetState s) := by
  have ha : failedCheck s.cfg = none := ha
  rw [exec, execEvReset, ha]

theorem exec_evReset_cases {s t : State} (h : exec .evReset s = .next t) : Admitted s.cfg ∧ t = resetState s := by
  rw [exec, execEvReset] at h
  split at h
  · cases h
  next ha => exact ⟨ha, (Host.Outcome.next.inj h).symm⟩

theorem exec_answers_of_admitted {s : State} (ha : Admitted s.cfg) (i : Instr) : ∃ t, exec i s = .next t := by
  by_cases hi : i = .evReset
  · exact ⟨_, hi ▸ exec_evReset ha⟩
  · exact exec_answers hi s

/-! ## The enabling table -/

/-- A disabled step has no effect (60_exceptions.md R146). -/
theorem Effect.eq_of_disabled {s t : State} {i : Instr} (h : Effect s i t) (hd : enabled i s = false) : t = s := by
  cases h with
  | waits => rfl
  | answers _ h => exact absurd h (Bool.eq_false_iff.mp hd)
  | startsDrain h => exact absurd h (Bool.eq_false_iff.mp hd)
  | setsTarget h => exact absurd h (Bool.eq_false_iff.mp hd)
  | setsEnable h => exact absurd h (Bool.eq_false_iff.mp hd)
  | publishes h => exact absurd h (Bool.eq_false_iff.mp hd)
  | ticksIn => cases hd
  | ticksOut => cases hd
  | drivesPins => cases hd
  | pushesEdge h => exact absurd h (Bool.eq_false_iff.mp hd)
  | clearsEdge h => exact absurd h (Bool.eq_false_iff.mp hd)
  | fires h => exact absurd h (Bool.eq_false_iff.mp hd)
  | decodesEdge h => exact absurd h (Bool.eq_false_iff.mp hd)
  | endsDrain h => exact absurd h (Bool.eq_false_iff.mp hd)

theorem exec_disabled {i : Instr} {s : State} (hd : enabled i s = false) : exec i s = .next s := by
  have hi : i ≠ .evReset := by rintro rfl; cases hd
  obtain ⟨t, ht⟩ := exec_answers hi s
  rw [ht, (exec_effect hi ht).eq_of_disabled hd]

/-- Every command waits for the task (60_exceptions.md R146). -/
theorem enabled_command {i : Instr} {w : Word32} (h : encode i = .command w) (s : State) :
    enabled i s = taskReady s := by
  cases i <;> cases h <;> rfl

/-- Settles O14: a disabled step has no effect, and the table is read off row by row. -/
theorem disabledStepsChangeNothing : Obligations.DisabledStepsChangeNothing := by
  refine ⟨fun i s => exec_disabled, fun s => ⟨fun i w h => ?_, rfl, rfl, fun _ => rfl, Iff.rfl, edgeIsrReady_iff s,
    edgeIsrClrReady_iff s, decodeOneReady_iff s, decodeEndReady_iff s, rfl⟩⟩
  rw [enabled_command h]
  exact taskReady_iff s

/-! ## Offers -/

theorem offerReady_of_decode {o : Offer} {i : Instr} (h : decode o = .ok i) (s : State) :
    offerReady s o = enabled i s := by
  rw [offerReady, h]

theorem runOffer_of_decode {o : Offer} {i : Instr} (h : decode o = .ok i) (s : State) : runOffer o s = exec i s := by
  rw [runOffer, h]

/-- A word that decodes to no instruction waits like a command and answers the illegal word (30_encoding.md R81; log
17). -/
theorem illegal_command {w : Word32} (h : ¬ ∃ i, decode (.command w) = .ok i) (s : State) :
    offerReady s (.command w) = taskReady s ∧ runOffer (.command w) s = execIllegal s := by
  rw [offerReady, runOffer]
  cases hd : decode (.command w) with
  | ok i => exact absurd ⟨i, hd⟩ h
  | error e => obtain rfl | rfl := decode_command_error hd <;> exact ⟨rfl, rfl⟩

theorem State.Waits.not_ready {s : State} {o : Offer} (h : s.Waits o) : offerReady s o = false := by
  obtain ⟨i, hi, hd⟩ | ⟨w, rfl, hw, hbusy⟩ := h
  · rw [offerReady_of_decode hi, hd]
  · rw [(illegal_command hw s).1, taskReady]
    obtain hb | hb := hbusy <;> simp [hb]

/-- The first ready offer is taken from among the waiting ones (log 3). -/
theorem takeOffer_append_cons {s : State} {pre : List Offer} {o : Offer} (post : List Offer)
    (hpre : ∀ p ∈ pre, offerReady s p = false) (ho : offerReady s o = true) :
    takeOffer s (pre ++ o :: post) = some (o, pre ++ post) := by
  induction pre with
  | nil => rw [List.nil_append, takeOffer, if_pos ho, List.nil_append]
  | cons p pre ih =>
    have hp := hpre p (List.mem_cons_self ..)
    rw [List.cons_append, takeOffer, hp, ih fun q hq => hpre q (List.mem_cons_of_mem _ hq)]
    rfl

/-- A step runs the first ready offer in the state without it. -/
theorem step_of_ready {s : State} {pre post : List Offer} {o : Offer} (hs : s.offers = pre ++ o :: post)
    (hpre : ∀ p ∈ pre, offerReady s p = false) (ho : offerReady s o = true) :
    step s = runOffer o (s.setOffers (pre ++ post)) := by
  rw [step, stepOnce, hs, takeOffer_append_cons post hpre ho]

/-- Settles O11: the first enabled offer is taken from among the waiting ones. -/
theorem stepTakesTheFirstEnabledOffer : Obligations.StepTakesTheFirstEnabledOffer := by
  intro s pre post o i hs hpre hi hen
  rw [step_of_ready hs (fun p hp => (hpre p hp).not_ready) (by rw [offerReady_of_decode hi, hen]),
    runOffer_of_decode hi]
  rfl

/-- Settles O9: the oldest offer is the first one. -/
theorem stepRunsTheDecodedOffer : Obligations.StepRunsTheDecodedOffer :=
  fun s o rest i hs => stepTakesTheFirstEnabledOffer s [] rest o i hs fun _ hp => absurd hp List.not_mem_nil

/-- Settles O10: an illegal word at the front is ready with the task, and only answers. -/
theorem stepOnAnIllegalWordWritesOnlyRsp : Obligations.StepOnAnIllegalWordWritesOnlyRsp := by
  intro s w rest hs hw hd he
  obtain ⟨hready, -⟩ := illegal_command hw s
  rw [step_of_ready (pre := []) hs (fun _ hp => absurd hp List.not_mem_nil)
    (by rw [hready, (taskReady_iff s).mpr ⟨hd, he⟩]), (illegal_command hw _).2, execIllegal,
    command_ready (s := s.setOffers ([] ++ rest)) hd he]
  rfl

/-! ## The block's own step -/

section pending
variable {s : State} {i : Instr}

theorem handlerStep_of_flag (h : s.tmr.flag = true) : handlerStep s = some .evTimerIsr := by
  simp [handlerStep, timerIsrReady, h]

theorem handlerStep_of_edgePhase (h : s.tmr.flag = false) (hp : s.edgePhase = true) :
    handlerStep s = some .evEdgeIsrClr := by
  simp [handlerStep, timerIsrReady, edgeIsrClrReady, h, hp]

theorem handlerStep_of_edgeFlag (h : s.tmr.flag = false) (hp : s.edgePhase = false) (hf : s.edgeFlag = true) :
    handlerStep s = some .evEdgeIsr := by
  simp [handlerStep, timerIsrReady, edgeIsrClrReady, edgeIsrReady, h, hp, hf]

/-- No handler is pending iff no flag of one is set (60_exceptions.md R146). -/
theorem handlerStep_none_iff :
    handlerStep s = none ↔ s.tmr.flag = false ∧ s.edgePhase = false ∧ s.edgeFlag = false := by
  cases hf : s.tmr.flag <;> cases hp : s.edgePhase <;> cases he : s.edgeFlag <;>
    simp [handlerStep, timerIsrReady, edgeIsrClrReady, edgeIsrReady, hf, hp, he]

theorem drainStep_of_events (hd : s.decPhase = true) (hp : s.edgePhase = false) (hr : s.ring.rd ≠ s.ring.wr) :
    drainStep s = some .evDecodeOne := by
  rw [drainStep, if_pos ((decodeOneReady_iff s).mpr ⟨hd, hr, hp⟩)]

theorem drainStep_of_empty (hd : s.decPhase = true) (hp : s.edgePhase = false) (hr : s.ring.rd = s.ring.wr) :
    drainStep s = some .evDecodeEnd := by
  rw [drainStep, if_neg fun h => ((decodeOneReady_iff s).mp h).2.1 hr, if_pos ((decodeEndReady_iff s).mpr ⟨hd, hr, hp⟩)]

theorem drainStep_of_no_drain (hd : s.decPhase = false) : drainStep s = none := by
  simp [drainStep, decodeOneReady, decodeEndReady, hd]

theorem runPending_handler (h : handlerStep s = some i) : runPending s = exec i s := by
  rw [runPending, h]

theorem runPending_drain (h : handlerStep s = none) (hd : drainStep s = some i) : runPending s = exec i s.refill := by
  rw [runPending, h, hd]

theorem runPending_idle (h : handlerStep s = none) (hd : drainStep s = none) : runPending s = .next s.refill := by
  rw [runPending, h, hd]

theorem step_of_none_ready (h : ∀ o ∈ s.offers, offerReady s o = false) : step s = runPending s := by
  rw [step, stepOnce, takeOffer_none.mpr h]

end pending

/-- Settles O12: with every offer waiting the step is the pending one, whose priority the flags decide. -/
theorem stepServesPendingWorkByPriority : Obligations.StepServesPendingWorkByPriority := by
  intro s hw
  rw [step_of_none_ready fun o ho => (hw o ho).not_ready]
  exact ⟨fun hf => runPending_handler (handlerStep_of_flag hf),
    fun hf hp => runPending_handler (handlerStep_of_edgePhase hf hp),
    fun hf hp he => runPending_handler (handlerStep_of_edgeFlag hf hp he),
    fun hf hp he hd hr => runPending_drain (handlerStep_none_iff.mpr ⟨hf, hp, he⟩) (drainStep_of_events hd hp hr),
    fun hf hp he hd hr => runPending_drain (handlerStep_none_iff.mpr ⟨hf, hp, he⟩) (drainStep_of_empty hd hp hr),
    fun hf hp he hd => runPending_idle (handlerStep_none_iff.mpr ⟨hf, hp, he⟩) (drainStep_of_no_drain hd)⟩

/-! ## What a step keeps -/

/-- Everything a run of one offer can do. -/
theorem runOffer_cases {o : Offer} {s t : State} (h : runOffer o s = .next t) :
    (∃ i, decode o = .ok i ∧ exec i s = .next t) ∨ (∃ w, o = .command w) ∧ execIllegal s = .next t := by
  cases hd : decode o with
  | ok i => exact .inl ⟨i, rfl, by rwa [runOffer_of_decode hd] at h⟩
  | error e =>
    rw [runOffer, hd] at h
    cases o with
    | command w =>
      obtain rfl | rfl := decode_command_error hd
      · exact .inr ⟨⟨w, rfl⟩, h⟩
      · exact .inr ⟨⟨w, rfl⟩, h⟩
    | event c p =>
      have he : e = .notAnEvent c := by
        rw [decode, decodeEventCode] at hd
        split at hd <;> cases hd
        rfl
      rw [he] at h
      cases h

theorem execIllegal_cases {s t : State} (h : execIllegal s = .next t) : t = s.setRsp illegalWord ∨ t = s :=
  (command_cases h).imp And.right And.right

/-- A step is an instruction's effect on the state with other offers, or an answer there, or only offers coming. -/
theorem step_next_cases {s t : State} (h : step s = .next t) :
    ∃ os, (∃ i, exec i (s.setOffers os) = .next t) ∨ t = (s.setOffers os).setRsp illegalWord ∨ t = s.setOffers os := by
  obtain ⟨o, rest, -, hs⟩ | ⟨-, i, -, hs⟩ | ⟨-, -, i, -, hs⟩ | ⟨-, -, -, hs⟩ := step_cases s
  · refine ⟨rest, ?_⟩
    obtain ⟨i, -, hi⟩ | ⟨-, hill⟩ := runOffer_cases (hs ▸ h)
    · exact .inl ⟨i, hi⟩
    · exact .inr (execIllegal_cases hill)
  · exact ⟨s.offers, .inl ⟨i, hs ▸ h⟩⟩
  · exact ⟨s.offers ++ s.cycle, .inl ⟨i, hs ▸ h⟩⟩
  · exact ⟨s.offers ++ s.cycle, .inr (.inr (Host.Outcome.next.inj (h.symm.trans hs)))⟩

/-- What every instruction keeps, and the offers and `RSP` do not touch, every step keeps. -/
theorem step_preserves {P : State → Prop} (hoffers : ∀ s os, P s → P (s.setOffers os))
    (hrsp : ∀ s w, P s → P (s.setRsp w)) (hexec : ∀ i s t, P s → exec i s = .next t → P t) {s t : State} (hs : P s)
    (h : step s = .next t) : P t := by
  obtain ⟨os, ⟨i, hi⟩ | rfl | rfl⟩ := step_next_cases h
  · exact hexec i _ _ (hoffers s os hs) hi
  · exact hrsp _ _ (hoffers s os hs)
  · exact hoffers s os hs

/-- No instruction writes the configuration or what is offered (10_state.md R52). -/
theorem exec_keeps {i : Instr} {s t : State} (h : exec i s = .next t) :
    t.cfg = s.cfg ∧ t.offers = s.offers ∧ t.cycle = s.cycle := by
  by_cases hi : i = .evReset
  · obtain ⟨-, rfl⟩ := exec_evReset_cases (hi ▸ h)
    exact ⟨rfl, rfl, rfl⟩
  · cases exec_effect hi h <;> exact ⟨rfl, rfl, rfl⟩

/-- Settles O56: neither an instruction nor an offer nor an answer touches the configuration. -/
theorem noStepWritesTheConfiguration : Obligations.NoStepWritesTheConfiguration := by
  intro s t h
  exact step_preserves (P := fun u => u.cfg = s.cfg) (fun _ _ hu => hu) (fun _ _ hu => hu)
    (fun _ _ _ hu hi => (exec_keeps hi).1.trans hu) rfl h

/-- An offer of an agent runs to a next state (60_exceptions.md R137). -/
theorem runOffer_answers {s : State} (ha : Admitted s.cfg) {o : Offer} (ho : ∀ c, decode o ≠ .error (.notAnEvent c)) :
    ∃ t, runOffer o s = .next t := by
  cases hd : decode o with
  | ok i =>
    rw [runOffer_of_decode hd]
    exact exec_answers_of_admitted ha i
  | error e =>
    rw [runOffer, hd]
    cases e with
    | notAnEvent c => exact absurd hd (ho c)
    | illegalOpcode => exact takeIf_answers ..
    | illegalFixedField => exact takeIf_answers ..

/-- Settles O13: an offer taken is one of the agents', and every instruction answers. -/
theorem noStepEverStops : Obligations.NoStepEverStops := by
  intro s ha hos
  obtain ⟨o, rest, ht, hs⟩ | ⟨-, i, -, hs⟩ | ⟨-, -, i, -, hs⟩ | ⟨-, -, -, hs⟩ := step_cases s
  · obtain ⟨pre, post, hl, -, -, -⟩ := takeOffer_some ht
    rw [hs]
    exact runOffer_answers (s := s.setOffers rest) ha (hos o (hl ▸ List.mem_append_right _ (List.mem_cons_self ..)))
  · rw [hs]; exact exec_answers_of_admitted ha i
  · rw [hs]; exact exec_answers_of_admitted (s := s.refill) ha i
  · exact ⟨_, hs⟩

end Sys2Proof.Machine
end

section
/-! PPM decoder (42_ppm_decoder.md R103 to R112): the five cases of an event, and the input hooks. -/

namespace Sys2Proof.Machine

/-! ## One event -/

section event
variable {cfg : Config} {p : Ppm} {ev : EdgeEvent}

theorem level_iff {snap : PortMask} : level cfg snap = true ↔ snap &&& cfg.ppmMask ≠ 0 := bne_iff_ne

theorem isSyncGap_iff {pulse : Tick} : isSyncGap cfg pulse = true ↔ cfg.frameSyncThreshold < pulse.toNat :=
  decide_eq_true_iff

/-- An event at the level before it is ignored (42_ppm_decoder.md R103, R105). -/
theorem Ppm.decodeEvent_same (h : level cfg ev.snap = p.prevLevel) : p.decodeEvent cfg ev = p := by
  rw [Ppm.decodeEvent, h, beq_self_eq_true, if_pos rfl]

/-- A rising edge only moves `prev_level` (42_ppm_decoder.md R105). -/
theorem Ppm.decodeEvent_rising (h : level cfg ev.snap = true) (hp : p.prevLevel = false) :
    p.decodeEvent cfg ev = { p with prevLevel := true } := by
  rw [Ppm.decodeEvent, h, hp]
  rfl

theorem Ppm.decodeEvent_falling (h : level cfg ev.snap = false) (hp : p.prevLevel = true) :
    p.decodeEvent cfg ev = p.fallingEdge cfg ev.ts := by
  rw [Ppm.decodeEvent, h, hp]
  rfl

/-- A sync gap restarts the frame (42_ppm_decoder.md R106). -/
theorem Ppm.fallingEdge_gap {ts : Tick} (h : isSyncGap cfg (elapsed ts p.lastToggleTime) = true) :
    p.fallingEdge cfg ts = { p with index := 0, prevLevel := false, lastToggleTime := ts } := by
  rw [Ppm.fallingEdge, h]
  rfl

/-- A pulse within the frame is stored at the cursor (42_ppm_decoder.md R105, R107). -/
theorem Ppm.fallingEdge_pulse {ts : Tick} (h : isSyncGap cfg (elapsed ts p.lastToggleTime) = false)
    (hi : p.index < cfg.nPpm) :
    p.fallingEdge cfg ts =
      { pulseTick := p.pulseTick.set p.index (elapsed ts p.lastToggleTime), index := p.index + 1, prevLevel := false
        lastToggleTime := ts, active := true } := by
  rw [Ppm.fallingEdge, h, Ppm.channelPulse, if_pos hi]
  rfl

/-- A pulse beyond the frame is discarded (42_ppm_decoder.md R107). -/
theorem Ppm.fallingEdge_overflow {ts : Tick} (h : isSyncGap cfg (elapsed ts p.lastToggleTime) = false)
    (hi : cfg.nPpm ≤ p.index) :
    p.fallingEdge cfg ts = { p with prevLevel := false, lastToggleTime := ts, active := true } := by
  rw [Ppm.fallingEdge, h, Ppm.channelPulse, if_neg hi.not_gt]
  rfl

/-- Everything a falling edge can do. -/
theorem Ppm.fallingEdge_cases (cfg : Config) (p : Ppm) (ts : Tick) :
    (isSyncGap cfg (elapsed ts p.lastToggleTime) = true ∧
      p.fallingEdge cfg ts = { p with index := 0, prevLevel := false, lastToggleTime := ts }) ∨
    (isSyncGap cfg (elapsed ts p.lastToggleTime) = false ∧ p.index < cfg.nPpm ∧
      p.fallingEdge cfg ts =
        { pulseTick := p.pulseTick.set p.index (elapsed ts p.lastToggleTime), index := p.index + 1, prevLevel := false
          lastToggleTime := ts, active := true }) ∨
    (isSyncGap cfg (elapsed ts p.lastToggleTime) = false ∧ cfg.nPpm ≤ p.index ∧
      p.fallingEdge cfg ts = { p with prevLevel := false, lastToggleTime := ts, active := true }) := by
  cases h : isSyncGap cfg (elapsed ts p.lastToggleTime) with
  | true => exact .inl ⟨rfl, Ppm.fallingEdge_gap h⟩
  | false =>
    obtain hi | hi := Nat.lt_or_ge p.index cfg.nPpm
    · exact .inr (.inl ⟨rfl, hi, Ppm.fallingEdge_pulse h hi⟩)
    · exact .inr (.inr ⟨rfl, hi, Ppm.fallingEdge_overflow h hi⟩)

/-- Everything an event can do: nothing, a rising edge, or a falling one. -/
theorem Ppm.decodeEvent_cases (cfg : Config) (p : Ppm) (ev : EdgeEvent) :
    p.decodeEvent cfg ev = p ∨ p.decodeEvent cfg ev = { p with prevLevel := true } ∨
      (level cfg ev.snap = false ∧ p.prevLevel = true ∧ p.decodeEvent cfg ev = p.fallingEdge cfg ev.ts) := by
  cases h : level cfg ev.snap <;> cases hp : p.prevLevel
  · exact .inl (Ppm.decodeEvent_same (h.trans hp.symm))
  · exact .inr (.inr ⟨rfl, rfl, Ppm.decodeEvent_falling h hp⟩)
  · exact .inr (.inl (Ppm.decodeEvent_rising h hp))
  · exact .inl (Ppm.decodeEvent_same (h.trans hp.symm))

/-- Decoding an event keeps the channel array and the bound of the cursor (10_state.md R37). -/
theorem Ppm.decodeEvent_fits (h : p.pulseTick.length = cfg.nPpm ∧ p.index ≤ cfg.nPpm) (ev : EdgeEvent) :
    (p.decodeEvent cfg ev).pulseTick.length = cfg.nPpm ∧ (p.decodeEvent cfg ev).index ≤ cfg.nPpm := by
  obtain ⟨hlen, hidx⟩ := h
  obtain he | he | ⟨-, -, he⟩ := p.decodeEvent_cases cfg ev <;> rw [he]
  · exact ⟨hlen, hidx⟩
  · exact ⟨hlen, hidx⟩
  · obtain ⟨-, hf⟩ | ⟨-, hlt, hf⟩ | ⟨-, -, hf⟩ := p.fallingEdge_cases cfg ev.ts <;> rw [hf]
    · exact ⟨hlen, Nat.zero_le _⟩
    · exact ⟨List.length_set.trans hlen, hlt⟩
    · exact ⟨hlen, hidx⟩

/-- Only a channel pulse changes `active`, and sets it (42_ppm_decoder.md R109). -/
theorem Ppm.decodeEvent_active_ne (h : (p.decodeEvent cfg ev).active ≠ p.active) :
    (p.decodeEvent cfg ev).active = true ∧ p.prevLevel = true ∧ level cfg ev.snap = false ∧
      isSyncGap cfg (elapsed ev.ts p.lastToggleTime) = false := by
  obtain he | he | ⟨hl, hp, he⟩ := p.decodeEvent_cases cfg ev
  · exact absurd (by rw [he]) h
  · exact absurd (by rw [he]) h
  · obtain ⟨-, hf⟩ | ⟨hg, -, hf⟩ | ⟨hg, -, hf⟩ := p.fallingEdge_cases cfg ev.ts
    · exact absurd (by rw [he, hf]) h
    · exact ⟨by rw [he, hf], hp, hl, hg⟩
    · exact ⟨by rw [he, hf], hp, hl, hg⟩

/-- Decoding looks at the tick and the monitored bit of an event (10_state.md R23). -/
theorem Ppm.decodeEvent_congr {ev' : EdgeEvent} (hts : ev'.ts = ev.ts)
    (hsnap : ev'.snap &&& cfg.ppmMask = ev.snap &&& cfg.ppmMask) : p.decodeEvent cfg ev' = p.decodeEvent cfg ev := by
  rw [Ppm.decodeEvent, Ppm.decodeEvent, level, level, hsnap, hts]

end event

/-! ## The drain -/

/-- In a drain with events the step pops the oldest and decodes it (42_ppm_decoder.md R105). -/
theorem exec_evDecodeOne {s : State} (h : decodeOneReady s = true) :
    exec .evDecodeOne s =
      .next ((s.setRing { slots := s.ring.slots, wr := s.ring.wr, rd := ringNext s.cfg.ringCap s.ring.rd }).setPpm
        (s.ppm.decodeEvent s.cfg (s.ring.slot s.ring.rd))) := by
  obtain ⟨-, hne, -⟩ := (decodeOneReady_iff s).mp h
  obtain ⟨he, -⟩ | ⟨-, hpop⟩ := Ring.pop_cases s.cfg.ringCap s.ring
  · exact absurd he hne
  · rw [exec, execEvDecodeOne, h, hpop, takeIf_enabled]

theorem Ring.slot_of_get {r : Ring} {i : Nat} {ev : EdgeEvent} (h : r.slots[i]? = some ev) : r.slot i = ev := by
  simp [Ring.slot, h]

/-- Settles O27: the step's effect, case by case of the event. -/
theorem decodeOneDecodesTheOldestEvent : Obligations.DecodeOneDecodesTheOldestEvent := by
  intro s ev hd hp hne hget popped high pulse
  have hexec : exec .evDecodeOne s = .next (popped.setPpm (s.ppm.decodeEvent s.cfg ev)) := by
    rw [exec_evDecodeOne ((decodeOneReady_iff s).mpr ⟨hd, hne, hp⟩), Ring.slot_of_get hget]
    rfl
  have hhigh : level s.cfg ev.snap = true ↔ high := level_iff
  have hlow (h : ¬ high) : level s.cfg ev.snap = false := Bool.eq_false_iff.mpr (mt hhigh.mp h)
  have hgap : isSyncGap s.cfg (elapsed ev.ts s.ppm.lastToggleTime) = true ↔ s.cfg.frameSyncThreshold < pulse.toNat :=
    isSyncGap_iff
  have hnogap (h : pulse.toNat ≤ s.cfg.frameSyncThreshold) :
      isSyncGap s.cfg (elapsed ev.ts s.ppm.lastToggleTime) = false :=
    Bool.eq_false_iff.mpr fun hg => (hgap.mp hg).not_ge h
  refine ⟨fun h => ?same, fun h hl => ?rising, fun h hl hg => ?gap, fun h hl hg hi => ?pulse,
    fun h hl hg hi => ?overflow⟩
  case same => rw [hexec, Ppm.decodeEvent_same (Bool.eq_iff_iff.mpr (hhigh.trans h))]; rfl
  case rising => rw [hexec, Ppm.decodeEvent_rising (hhigh.mpr h) hl]; rfl
  case gap => rw [hexec, Ppm.decodeEvent_falling (hlow h) hl, Ppm.fallingEdge_gap (hgap.mpr hg)]; rfl
  case pulse => rw [hexec, Ppm.decodeEvent_falling (hlow h) hl, Ppm.fallingEdge_pulse (hnogap hg) hi]; rfl
  case overflow => rw [hexec, Ppm.decodeEvent_falling (hlow h) hl, Ppm.fallingEdge_overflow (hnogap hg) hi]; rfl

/-- Settles O31: of the effects only the two of the drain write `active`. -/
theorem onlyAChannelPulseSetsActive : Obligations.OnlyAChannelPulseSetsActive := by
  intro i s t hi h hne
  cases exec_effect hi h with
  | decodesEdge =>
    obtain ⟨hset, hp, hl, hg⟩ := Ppm.decodeEvent_active_ne hne
    refine ⟨fun _ => ⟨rfl, hp, ?_, ?_⟩, fun hclear => absurd (hset.symm.trans hclear) Bool.noConfusion⟩
    · exact not_not.mp (mt level_iff.mpr (Bool.eq_false_iff.mp hl))
    · exact not_lt.mp (mt isSyncGap_iff.mpr (Bool.eq_false_iff.mp hg))
  | endsDrain =>
    rw [State.setDecPhase_ppm, State.setPpm_ppm, Ppm.watchdog_eq] at hne ⊢
    by_cases hexp : (s.tbIn - s.ppm.lastToggleTime).toNat > s.cfg.inactivityTimeout
    · exact ⟨fun hset => absurd ((if_pos hexp).symm.trans hset) Bool.noConfusion, fun _ => ⟨rfl, hexp⟩⟩
    · exact absurd (if_neg hexp) hne
  | _ => exact absurd rfl hne

/-- Settles O32: the two states pop events that decode alike, and nothing else reads the slots. -/
theorem unmonitoredPinsNeverReachTheDecoder : Obligations.UnmonitoredPinsNeverReachTheDecoder := by
  intro s slots t u hslots ht hu
  by_cases hr : decodeOneReady s = true
  · have hev : (s.ring.slot s.ring.rd).ts = (Ring.slot { s.ring with slots := slots } s.ring.rd).ts ∧
        (s.ring.slot s.ring.rd).snap &&& s.cfg.ppmMask =
          (Ring.slot { s.ring with slots := slots } s.ring.rd).snap &&& s.cfg.ppmMask := by
      have hget := congrArg (fun l => l[s.ring.rd]?) hslots
      simp only [List.getElem?_map] at hget
      cases hs : s.ring.slots[s.ring.rd]? <;> cases hs' : slots[s.ring.rd]? <;> simp_all [Ring.slot]
    rw [exec_evDecodeOne hr] at ht
    rw [exec_evDecodeOne (s := { s with ring := { s.ring with slots := slots } }) hr] at hu
    cases ht
    cases hu
    exact congrArg _ (Ppm.decodeEvent_congr hev.1.symm hev.2.symm)
  · have hd : enabled .evDecodeOne s = false := Bool.eq_false_iff.mpr hr
    rw [exec_disabled hd] at ht
    rw [exec_disabled (s := { s with ring := { s.ring with slots := slots } }) hd] at hu
    cases ht
    cases hu
    rfl

/-! ## The commands -/

/-- Settles O26: the row fixes every bit, and a ready command starts the drain. -/
theorem ppmPreStartsTheDrain : Obligations.PpmPreStartsTheDrain := by
  refine ⟨fun w => ⟨fun h => ?_, fun h => h ▸ rfl⟩, fun s => ⟨taskReady_iff s, fun hd he => ?_⟩⟩
  · exact (Offer.command.inj (encodeOfDecodeIsTheWord w _ h)).symm
  · rw [exec, execPpmPre, command_ready hd he]
    rfl

theorem ppmInRange_iff (cfg : Config) (ch : Channel) : ppmInRange cfg ch = true ↔ ch.toNat < cfg.nPpm :=
  decide_eq_true_iff

theorem Ppm.pulse_of_get {p : Ppm} {j : Nat} {v : Tick} (h : p.pulseTick[j]? = some v) : p.pulse j = v := by
  simp [Ppm.pulse, h]

/-- `Result(1, 0, act, val)` as a number (30_encoding.md R82). -/
theorem resultWord_act (act : Bool) (val : Tick) :
    resultWord true false act val = 0x80000000#32 ||| (if act then 0x00010000#32 else 0#32) ||| val.setWidth 32 := by
  rw [resultWord, BitVec.append_def, BitVec.setWidth'_eq]
  cases act <;> rfl

/-- Settles O29: a ready read answers the stored width in range, the failure out of range. -/
theorem ppmGetReadsOneChannel : Obligations.PpmGetReadsOneChannel := by
  refine fun s ch hd he => ⟨fun v hc hv => ?_, fun hc => ?_⟩
  · rw [exec, execPpmGet, command_ready hd he, (ppmInRange_iff ..).mpr hc, if_pos rfl, Ppm.pulse_of_get hv,
      resultWord_act]
    rfl
  · rw [exec, execPpmGet, command_ready hd he, if_neg (mt (ppmInRange_iff ..).mp hc.not_gt)]
    rfl

/-- Settles O30: the three hooks have no effect but their answer. -/
theorem emptyHooksWriteOnlyRsp : Obligations.EmptyHooksWriteOnlyRsp :=
  fun _ _ _ _ hd he => ⟨command_ready hd he, command_ready hd he, command_ready hd he⟩

end Sys2Proof.Machine
end

section
/-! The timer-compare engine (44_servo_output.md R129 to R132): the three things a firing can do. -/

namespace Sys2Proof.Machine

/-! ## One firing -/

section fire
variable {s : State}

theorem atLastStep_iff : atLastStep s = true ↔ s.tmr.stepIdx + 1 = s.sched.current.len := beq_iff_eq

/-- Inside a schedule the firing moves to the next step (44_servo_output.md R129). -/
theorem fire_inside (h : s.tmr.stepIdx + 1 ≠ s.sched.current.len) :
    fire s = { s with
      tmr := { cnt := 0#16, cmp := (firingStep s).ticks, flag := false, stepIdx := s.tmr.stepIdx + 1 }
      outPort := s.outPort ^^^ (firingStep s).mask } := by
  have hl : atLastStep s = false := Bool.eq_false_iff.mpr (mt atLastStep_iff.mp h)
  rw [fire, hl]
  rfl

/-- With nothing published the last firing starts the schedule again (44_servo_output.md R131). -/
theorem fire_repeat (h : s.tmr.stepIdx + 1 = s.sched.current.len) (hp : s.sched.nextPending = false) :
    fire s = { s with
      tmr := { cnt := 0#16, cmp := (firingStep s).ticks, flag := false, stepIdx := 0 }
      outPort := s.outPort ^^^ (firingStep s).mask } := by
  rw [fire, atLastStep_iff.mpr h, Sched.swap, hp]
  rfl

/-- A published schedule becomes current at the last firing (44_servo_output.md R130). -/
theorem fire_swap (h : s.tmr.stepIdx + 1 = s.sched.current.len) (hp : s.sched.nextPending = true) :
    fire s = { s with
      tmr := { cnt := 0#16, cmp := (firingStep s).ticks, flag := false, stepIdx := 0 }
      outPort := s.outPort ^^^ (firingStep s).mask
      outDrive := s.sched.standby.drive
      sched := { s.sched with cur := !s.sched.cur, nextPending := false } } := by
  rw [fire, atLastStep_iff.mpr h, Sched.swap, hp]
  rfl

/-- A set flag makes the handler fire (44_servo_output.md R129). -/
theorem exec_evTimerIsr (hf : s.tmr.flag = true) : exec .evTimerIsr s = .next (fire s) := by
  rw [exec, execEvTimerIsr, timerIsrReady, hf, takeIf_enabled]

theorem firingStep_of_get {st : PulseStep} (h : s.sched.current.steps[s.tmr.stepIdx]? = some st) : firingStep s = st :=
  Buffer.step_of_get h

end fire

/-- Settles O43: the three cases of a firing. -/
theorem timerHandlerFiresOneStep : Obligations.TimerHandlerFiresOneStep := by
  intro s st hf hget
  rw [exec_evTimerIsr hf, ← firingStep_of_get hget]
  exact ⟨fun h => congrArg _ (fire_inside h), fun h hp => congrArg _ (fire_repeat h hp),
    fun h hp => congrArg _ (fire_swap h hp)⟩

/-- Only the last firing with a schedule published exchanges the buffers (44_servo_output.md R130). -/
theorem fire_cur_ne {s : State} (h : (fire s).sched.cur ≠ s.sched.cur) :
    s.tmr.stepIdx + 1 = s.sched.current.len ∧ s.sched.nextPending = true := by
  by_cases hl : s.tmr.stepIdx + 1 = s.sched.current.len
  · refine ⟨hl, eq_true_of_ne_false fun hp => h ?_⟩
    rw [fire_repeat hl hp]
  · exact absurd (by rw [fire_inside hl]) h

/-- Settles O44: of the effects only a publish writes a buffer, the free one, and only a firing exchanges them. -/
theorem currentScheduleIsNeverAltered : Obligations.CurrentScheduleIsNeverAltered := by
  intro i s t hi h
  cases exec_effect hi h with
  | publishes _ hp =>
    exact ⟨Sched.publish_buffer_cur .., fun hp' => absurd (hp.symm.trans hp') Bool.noConfusion,
      fun hcur => absurd (Sched.publish_cur ..) hcur⟩
  | fires hf =>
    refine ⟨fire_buffer .., fun _ => fire_buffer .., fun hcur => ?_⟩
    obtain ⟨hl, hp⟩ := fire_cur_ne hcur
    exact ⟨rfl, hf, hp, hl, by rw [fire_swap hl hp]; exact ⟨rfl, rfl, rfl⟩⟩
  | _ => exact ⟨rfl, fun _ => rfl, fun hcur => absurd rfl hcur⟩

/-! ## The steps of a buffer -/

section buffer
variable {b : Buffer} {k : Nat}

theorem Buffer.take_getElem? (hk : k < b.len) (hlen : b.len ≤ b.steps.length) :
    (b.steps.take b.len)[k]? = some (b.step k) := by
  have hget := List.getElem?_eq_getElem (hk.trans_le hlen)
  rw [List.getElem?_take_of_lt hk, hget, Buffer.step_of_get hget]

theorem Buffer.step_mem_take (hk : k < b.len) (hlen : b.len ≤ b.steps.length) : b.step k ∈ b.steps.take b.len :=
  List.mem_of_getElem? (Buffer.take_getElem? hk hlen)

/-- The masks up to a step and that step's. -/
theorem Buffer.masks_take_succ (hk : k < b.len) (hlen : b.len ≤ b.steps.length) :
    b.masks.take (k + 1) = b.masks.take k ++ [(b.step k).mask] := by
  rw [List.take_add_one, Buffer.masks, List.getElem?_map, Buffer.take_getElem? hk hlen]
  rfl

theorem Buffer.masks_length (hlen : b.len ≤ b.steps.length) : b.masks.length = b.len := by
  rw [Buffer.masks, List.length_map, List.length_take]
  omega

@[simp] theorem Buffer.load_masks (b : Buffer) (st : List PulseStep) (m : PortMask) :
    (b.load st m).masks = st.map PulseStep.mask := by
  rw [Buffer.masks, Buffer.load_len, Buffer.load_take]

end buffer

end Sys2Proof.Machine
end

section
/-! Reset (70_reset_and_hazards.md R161 to R163) and the two invariants (10_state.md R53): they hold right after reset,
and every step keeps them. -/

namespace Sys2Proof.Machine

/-! ## Reset -/

/-- Settles O48: the state reset leaves, element by element. -/
theorem resetLeavesTheTabulatedValues : Obligations.ResetLeavesTheTabulatedValues := by
  intro s ha
  refine ⟨_, exec_evReset ha, rfl, rfl, rfl, rfl, rfl, rfl, rfl, rfl, rfl, rfl, rfl, ?length, ?srv, rfl, rfl, rfl,
    rfl, rfl, rfl, rfl, rfl, rfl, rfl⟩
  case length => rw [resetState, List.length_map, List.length_range]
  case srv =>
    intro c hc
    rw [resetState, List.getElem?_map, List.getElem?_range hc]
    rfl

/-- Settles O49: the check that names the refusal is the first that does not hold. -/
theorem resetRefusesAFailedCheckByName : Obligations.ResetRefusesAFailedCheckByName := by
  intro s ha
  obtain ⟨check, hcheck⟩ := Option.ne_none_iff_exists'.mp ha
  refine ⟨check, by rw [exec, execEvReset, hcheck], ?_⟩
  have hfails := List.find?_some (p := fun c => !checkHolds s.cfg c) hcheck
  exact (Bool.not_eq_true' _).mp hfails

/-- Settles O51: the first tick meets the compare value 1, and the firing is the idle schedule's only step. -/
theorem firstFiringAfterResetIsIdle : Obligations.FirstFiringAfterResetIsIdle := by
  intro cfg tb pins
  refine ⟨_, _, rfl, rfl, exec_evTimerIsr rfl, ?_⟩
  rw [fire_repeat rfl rfl]
  exact ⟨Nat.xor_self 0, rfl, rfl, rfl⟩

/-! ## The parts of the invariant -/

section parts
variable {cfg : Config}

theorem idle_ticks (ha : Admitted cfg) : 1 ≤ (PulseStep.idle cfg).ticks.toNat := by
  have hpos := refreshPeriod_pos ha
  have hle := refreshPeriod_le ha
  rw [PulseStep.idle, BitVec.toNat_ofNat]
  omega

/-- A buffer that holds the idle schedule can run (10_state.md R45). -/
theorem Buffer.idle_runnable (ha : Admitted cfg) {b : Buffer} (hlen : b.len = 1)
    (hsteps : b.steps.take 1 = [PulseStep.idle cfg]) : b.Runnable cfg := by
  refine ⟨hlen.ge, hlen.le.trans (Nat.succ_le_succ (Nat.zero_le _)), fun st hst => ?_⟩
  rw [hlen, hsteps] at hst
  rw [List.mem_singleton.mp hst]
  exact idle_ticks ha

/-- The idle schedule toggles nothing. -/
theorem Buffer.idle_masks {b : Buffer} (hlen : b.len = 1) (hsteps : b.steps.take 1 = [PulseStep.idle cfg]) :
    b.masks = [0] := by
  rw [Buffer.masks, hlen, hsteps]
  rfl

theorem Buffer.idle_fits : (Buffer.idle cfg).Fits cfg := by
  refine ⟨by simp [Buffer.idle, Config.maxSteps], Nat.two_pow_pos _, fun st hst => ?_⟩
  obtain rfl | hst := List.mem_cons.mp hst
  · exact Nat.two_pow_pos _
  · rw [(List.mem_replicate.mp hst).2]
    exact Nat.two_pow_pos _

/-- The channels after reset are at `MIN_PULSE` (70_reset_and_hazards.md R162). -/
theorem initialServos_fit (ha : Admitted cfg) {srv : List Servo}
    (hsrv : srv = (List.range cfg.nServo).map
      (fun c => { enabled := cfg.enableInit c, active := false, timerValue := BitVec.ofNat 16 cfg.minPulse })) :
    srv.length = cfg.nServo ∧ ∀ x ∈ srv, x.InBounds cfg := by
  subst hsrv
  refine ⟨(List.length_map ..).trans List.length_range, fun x hx => ?_⟩
  obtain ⟨c, -, rfl⟩ := List.mem_map.mp hx
  have hle := minPulse_le_maxPulse ha
  have hmax := maxPulse_le ha
  rw [Servo.InBounds, BitVec.toNat_ofNat]
  omega

theorem clampPulse_bounds (ha : Admitted cfg) (v : Tick) :
    cfg.minPulse ≤ (clampPulse cfg v).toNat ∧ (clampPulse cfg v).toNat ≤ cfg.maxPulse := by
  have hle := minPulse_le_maxPulse ha
  have hmax := maxPulse_le ha
  rw [clampPulse, BitVec.toNat_ofNat]
  omega

/-- Loading a schedule that fits keeps a buffer's shape. -/
theorem Buffer.Fits.load {b : Buffer} (hb : b.Fits cfg) {steps : List PulseStep} {drive : PortMask}
    (hlen : steps.length ≤ cfg.maxSteps) (hdrive : drive < 2 ^ cfg.portW)
    (hmask : ∀ st ∈ steps, st.mask < 2 ^ cfg.portW) : (b.load steps drive).Fits cfg := by
  obtain ⟨hcap, -, hold⟩ := hb
  refine ⟨(Buffer.load_length drive (hcap ▸ hlen)).trans hcap, hdrive, fun st hst => ?_⟩
  obtain hst | hst := List.mem_append.mp hst
  · exact hmask st hst
  · exact hold st (List.mem_of_mem_drop hst)

theorem orMasks_pins_lt (ha : Admitted cfg) {cs : List Nat} (h : ∀ c ∈ cs, c < cfg.nServo) :
    orMasks (cs.map cfg.pinMask) < 2 ^ cfg.portW := by
  refine orMasks_lt fun m hm => ?_
  obtain ⟨c, hc, rfl⟩ := List.mem_map.mp hm
  exact pinMask_lt ha (h c hc)

theorem scheduleDrive_lt (ha : Admitted cfg) (srv : List Servo) : scheduleDrive cfg srv < 2 ^ cfg.portW :=
  orMasks_pins_lt ha fun _ hc => List.mem_range.mp (List.mem_of_mem_filter hc)

theorem scheduleSteps_mask_lt (ha : Admitted cfg) {srv : List Servo} {st : PulseStep}
    (hst : st ∈ scheduleSteps cfg srv) : st.mask < 2 ^ cfg.portW := by
  rw [← scheduleSteps_withinPins (one_le_kLanes ha) st hst]
  exact Nat.and_lt_two_pow _ (orMasks_pins_lt ha fun _ hc => (mem_dealtChannels.mp hc).1)

theorem scheduleSteps_length_le (cfg : Config) (srv : List Servo) : (scheduleSteps cfg srv).length ≤ cfg.maxSteps :=
  (buildSteps_length_le ..).trans (Nat.succ_le_succ (dealtChannels_length_le ..))

/-- A build loaded into a buffer can run (43_schedule_builder.md R120). -/
theorem Buffer.load_runnable (ha : Admitted cfg) {srv : List Servo} (hlen : srv.length = cfg.nServo)
    (hb : ∀ x ∈ srv, x.InBounds cfg) (b : Buffer) (drive : PortMask) :
    (b.load (scheduleSteps cfg srv) drive).Runnable cfg := by
  refine ⟨List.length_pos_iff.mpr (buildSteps_ne_nil _ _ _ _ _ _), scheduleSteps_length_le .., ?_⟩
  rw [Buffer.load_len, Buffer.load_take]
  exact (scheduleSteps_fills ha hlen hb).1

end parts

/-- Settles O52: each element of the reset table meets its clause. -/
theorem invariantsHoldAfterReset : Obligations.InvariantsHoldAfterReset := by
  intro cfg tb pins ha hpins
  have hcap : 0 < cfg.ringCap := Nat.zero_lt_of_lt (two_le_ringCap ha)
  constructor
  · exact
      { admitted := ha
        inPort := hpins
        outPort := Nat.two_pow_pos _
        outDrive := Nat.two_pow_pos _
        ring := ⟨List.length_replicate, hcap, hcap, fun ev hev => by
          rw [(List.mem_replicate.mp hev).2]; exact Nat.two_pow_pos _⟩
        ppm := ⟨List.length_replicate, Nat.zero_le _⟩
        srv := initialServos_fit ha rfl
        buffers := ⟨Buffer.idle_fits, Buffer.idle_fits⟩
        current := Buffer.idle_runnable ha rfl rfl
        published := fun h => Bool.noConfusion h
        stepIdx := Nat.one_pos
        compare := (by decide : (1#16 : Tick) ≠ 0#16) }
  · exact
      { latch := rfl
        current := by
          rw [Buffer.idle_masks (cfg := cfg) rfl rfl]
          rfl
        published := fun h => Bool.noConfusion h }

/-! ## Every step keeps `Inv` -/

section inv
variable {s : State}

theorem State.Inv.buffer (h : s.Inv) (b : Bool) : (s.sched.buffer b).Fits s.cfg := by
  cases b
  · exact h.buffers.1
  · exact h.buffers.2

theorem State.Inv.current_len_le (h : s.Inv) : s.sched.current.len ≤ s.sched.current.steps.length :=
  h.current.2.1.trans (h.buffer _).1.ge

/-- The step a firing executes is one of the current schedule. -/
theorem State.Inv.firingStep_mem (h : s.Inv) : firingStep s ∈ s.sched.current.steps.take s.sched.current.len :=
  Buffer.step_mem_take h.stepIdx h.current_len_le

theorem ne_zero_of_one_le_toNat {t : Tick} (h : 1 ≤ t.toNat) : t ≠ 0#16 := by
  rintro rfl
  exact absurd h (by decide)

theorem State.Inv.fire (h : s.Inv) : (fire s).Inv := by
  have hst := h.firingStep_mem
  have hmask : s.outPort ^^^ (firingStep s).mask < 2 ^ s.cfg.portW :=
    Nat.xor_lt_two_pow h.outPort ((h.buffer _).2.2 _ (List.mem_of_mem_take hst))
  have hcmp : (firingStep s).ticks ≠ 0#16 := ne_zero_of_one_le_toNat (h.current.2.2 _ hst)
  have hidx := h.stepIdx
  by_cases hl : s.tmr.stepIdx + 1 = s.sched.current.len
  · cases hp : s.sched.nextPending with
    | false =>
      rw [fire_repeat hl hp]
      exact { h with outPort := hmask, stepIdx := h.current.1, compare := hcmp }
    | true =>
      rw [fire_swap hl hp]
      have hnext := h.published hp
      exact { h with
        outPort := hmask
        outDrive := (h.buffer _).2.1
        current := hnext
        published := fun hp => Bool.noConfusion hp
        stepIdx := hnext.1
        compare := hcmp }
  · rw [fire_inside hl]
    exact { h with outPort := hmask, stepIdx := (by dsimp only; omega), compare := hcmp }

/-- A write of one channel that keeps its width in bounds. -/
theorem State.Inv.setServo (h : s.Inv) {c : Nat} {x : Servo} (hx : x.InBounds s.cfg) :
    (s.setSrv (s.srv.set c x)).Inv :=
  { h with
    srv := by
      obtain ⟨hlen, hb⟩ := h.srv
      exact ⟨List.length_set.trans hlen, fun y hy => (List.mem_or_eq_of_mem_set hy).elim (hb y) fun he => he ▸ hx⟩ }

theorem State.Inv.setRsp (h : s.Inv) (w : Word32) : (s.setRsp w).Inv := { h with }

theorem State.Inv.publish (h : s.Inv) :
    (s.setSched (s.sched.publish (scheduleSteps s.cfg s.srv) (scheduleDrive s.cfg s.srv))).Inv := by
  obtain ⟨hlen, hb⟩ := h.srv
  have hfits (b : Bool) :
      ((s.sched.publish (scheduleSteps s.cfg s.srv) (scheduleDrive s.cfg s.srv)).buffer b).Fits s.cfg := by
    by_cases hcur : b = s.sched.cur
    · rw [hcur, Sched.publish_buffer_cur]
      exact h.buffer _
    · have hstandby := Sched.publish_standby s.sched (scheduleSteps s.cfg s.srv) (scheduleDrive s.cfg s.srv)
      rw [Sched.standby, Sched.publish_cur, ← Bool.eq_not.mpr hcur] at hstandby
      rw [hstandby]
      exact (h.buffer _).load (scheduleSteps_length_le ..) (scheduleDrive_lt h.admitted _)
        fun _ => scheduleSteps_mask_lt h.admitted
  exact { h with
    buffers := ⟨hfits false, hfits true⟩
    current := by
      rw [State.setSched_sched, Sched.publish_current]
      exact h.current
    published := fun _ => by
      rw [State.setSched_sched, Sched.publish_standby]
      exact Buffer.load_runnable h.admitted hlen hb _ _
    stepIdx := by
      rw [State.setSched_sched, Sched.publish_current]
      exact h.stepIdx }

theorem State.Inv.reset (h : s.Inv) : (resetState s).Inv := by
  have hcap : 0 < s.cfg.ringCap := Nat.zero_lt_of_lt (two_le_ringCap h.admitted)
  obtain ⟨hslots, -, -, hsnap⟩ := h.ring
  exact
    { admitted := h.admitted
      inPort := h.inPort
      outPort := Nat.two_pow_pos _
      outDrive := Nat.two_pow_pos _
      ring := ⟨hslots, hcap, hcap, hsnap⟩
      ppm := ⟨List.length_replicate, Nat.zero_le _⟩
      srv := initialServos_fit h.admitted rfl
      buffers := ⟨h.buffers.1.load (Nat.succ_le_succ (Nat.zero_le _)) (Nat.two_pow_pos _) fun st hst => by
        rw [List.mem_singleton.mp hst]; exact Nat.two_pow_pos _, h.buffers.2⟩
      current := Buffer.idle_runnable h.admitted rfl rfl
      published := fun hp => Bool.noConfusion hp
      stepIdx := Nat.one_pos
      compare := (by decide : (1#16 : Tick) ≠ 0#16) }

/-- Every instruction keeps the invariant (10_state.md R53). -/
theorem State.Inv.exec {i : Instr} {t : State} (h : s.Inv) (hx : exec i s = .next t) : t.Inv := by
  by_cases hi : i = .evReset
  · obtain ⟨-, rfl⟩ := exec_evReset_cases (hi ▸ hx)
    exact h.reset
  have hcap : 0 < s.cfg.ringCap := Nat.zero_lt_of_lt (two_le_ringCap h.admitted)
  obtain ⟨hslots, hwr, hrd, hsnap⟩ := h.ring
  cases exec_effect hi hx with
  | waits => exact h
  | answers => exact { h with }
  | startsDrain => exact { h with }
  | setsTarget _ ch hc v a => exact (h.setServo (clampPulse_bounds h.admitted v)).setRsp _
  | setsEnable _ ch hc en =>
    obtain ⟨hlen, hb⟩ := h.srv
    exact (h.setServo (x := { servoAt s.srv ch.toNat with enabled := en })
      (pulseWidth_bounds hlen hb ((srvInRange_iff ..).mp hc))).setRsp _
  | publishes => exact h.publish.setRsp _
  | ticksIn => exact { h with }
  | ticksOut => exact { h with }
  | drivesPins p => exact { h with inPort := Nat.mod_lt _ (Nat.two_pow_pos _) }
  | pushesEdge =>
    exact { h with
      ring := ⟨(Ring.push_length ..).trans hslots, Ring.push_wr_lt hcap hwr _, (Ring.push_rd ..).trans_lt hrd,
        fun ev hev => (Ring.push_mem hev).elim (fun he => by rw [he]; exact h.inPort) (hsnap ev)⟩ }
  | clearsEdge => exact { h with }
  | fires => exact h.fire
  | decodesEdge =>
    exact { h with ring := ⟨hslots, hwr, ringNext_lt hcap _, hsnap⟩, ppm := Ppm.decodeEvent_fits h.ppm _ }
  | endsDrain =>
    exact { h with
      ppm := by
        rw [State.setDecPhase_ppm, State.setPpm_ppm, Ppm.watchdog_eq]
        exact h.ppm }

end inv

/-- Settles O53: every instruction keeps the invariant, and neither the offers nor `RSP` stand in it. -/
theorem everyStepKeepsTheInvariants : Obligations.EveryStepKeepsTheInvariants :=
  fun _ _ => step_preserves (fun _ _ h => { h with }) (fun _ _ h => { h with }) fun _ _ _ => State.Inv.exec

/-! ## Every step keeps `OutInv` -/

section outInv
variable {s : State}

/-- Firing a step adds its mask to those fired. -/
theorem State.OutInv.fired (h : s.OutInv) (hi : s.Inv) :
    s.outPort ^^^ (firingStep s).mask = xorMasks (s.sched.current.masks.take (s.tmr.stepIdx + 1)) := by
  rw [Buffer.masks_take_succ hi.stepIdx hi.current_len_le, xorMasks_append, ← h.latch, xorMasks_cons, xorMasks_nil,
    Nat.xor_zero]
  rfl

/-- After the last step every pin is toggled back (10_state.md R53(e)). -/
theorem State.OutInv.fired_last (h : s.OutInv) (hi : s.Inv) (hl : s.tmr.stepIdx + 1 = s.sched.current.len) :
    s.outPort ^^^ (firingStep s).mask = 0 := by
  rw [h.fired hi, hl, ← Buffer.masks_length hi.current_len_le, List.take_length, h.current]

theorem State.OutInv.fire (h : s.OutInv) (hi : s.Inv) : (fire s).OutInv := by
  by_cases hl : s.tmr.stepIdx + 1 = s.sched.current.len
  · cases hp : s.sched.nextPending with
    | false =>
      rw [fire_repeat hl hp]
      exact { h with latch := h.fired_last hi hl }
    | true =>
      rw [fire_swap hl hp]
      exact { latch := h.fired_last hi hl, current := h.published hp, published := fun hp => Bool.noConfusion hp }
  · rw [fire_inside hl]
    exact { h with latch := h.fired hi }

theorem State.OutInv.publish (h : s.OutInv) (hi : s.Inv) :
    (s.setSched (s.sched.publish (scheduleSteps s.cfg s.srv) (scheduleDrive s.cfg s.srv))).OutInv where
  latch := by
    rw [State.setSched_sched, Sched.publish_current]
    exact h.latch
  current := by
    rw [State.setSched_sched, Sched.publish_current]
    exact h.current
  published _ := by
    rw [State.setSched_sched, Sched.publish_standby, Buffer.load_masks]
    exact xorMasks_scheduleSteps (one_le_kLanes hi.admitted)

theorem State.OutInv.reset : (resetState s).OutInv where
  latch := rfl
  current := by
    rw [Buffer.idle_masks (cfg := s.cfg) rfl rfl]
    rfl
  published hp := Bool.noConfusion hp

/-- Every instruction keeps the latch invariant of a state that meets the other one. -/
theorem State.OutInv.exec {i : Instr} {t : State} (h : s.OutInv) (hi : s.Inv) (hx : exec i s = .next t) : t.OutInv := by
  by_cases hr : i = .evReset
  · obtain ⟨-, rfl⟩ := exec_evReset_cases (hr ▸ hx)
    exact .reset
  cases exec_effect hr hx with
  | waits => exact h
  | fires => exact h.fire hi
  | publishes => exact { h.publish hi with }
  | _ => exact { h with }

end outInv

/-- Settles O54: the two invariants together are kept by every instruction. -/
theorem everyStepKeepsTheLatchInvariant : Obligations.EveryStepKeepsTheLatchInvariant := by
  intro s t hi ho h
  refine (step_preserves (P := fun u => u.Inv ∧ u.OutInv) ?_ ?_ ?_ ⟨hi, ho⟩ h).2
  · exact fun _ _ hu => ⟨{ hu.1 with }, { hu.2 with }⟩
  · exact fun _ _ hu => ⟨{ hu.1 with }, { hu.2 with }⟩
  · exact fun _ _ _ hu hx => ⟨hu.1.exec hx, hu.2.exec hu.1 hx⟩

/-- Settles O55: the last firing's latch is the XOR of the whole schedule. -/
theorem latchIsLowAtTheEndOfASchedule : Obligations.LatchIsLowAtTheEndOfASchedule := by
  intro s t hi ho hf hl h
  rw [exec_evTimerIsr hf] at h
  cases h
  exact ho.fired_last hi hl

end Sys2Proof.Machine
end

section
/-! Sequences of instructions, the ticks (40_timebase.md R89, R92) and the edge handler (41_edge_capture.md R95, R101)
with its ring (20_memory.md R67). -/

namespace Sys2Proof.Machine

/-! ## Sequences -/

theorem runInstrs_cons {i : Instr} {rest : List Instr} {s t : State} (h : exec i s = .next t) :
    runInstrs (i :: rest) s = runInstrs rest t := by
  rw [runInstrs, h]

theorem runInstrs_singleton {i : Instr} {s t : State} (h : exec i s = .next t) : runInstrs [i] s = .next t :=
  runInstrs_cons h

theorem runInstrs_append {is js : List Instr} {s t : State} (h : runInstrs is s = .next t) :
    runInstrs (is ++ js) s = runInstrs js t := by
  induction is generalizing s with
  | nil => cases h; rfl
  | cons i is ih =>
    rw [runInstrs] at h
    split at h
    next u hu => rw [List.cons_append, runInstrs_cons hu, ih h]
    · cases h
    · cases h

/-! ## Ticks -/

theorem exec_evTickIn (s : State) : exec .evTickIn s = .next (s.setTbIn (s.tbIn + 1#16)) := rfl

theorem exec_evTickOut (s : State) : exec .evTickOut s = .next (s.setTmr s.tmr.tick) := rfl

theorem compareMatch_iff {cnt cmp : Tick} : compareMatch cnt cmp = true ↔ cnt = cmp := beq_iff_eq

/-- A tick that does not meet the compare value only counts (40_timebase.md R89). -/
theorem Timer.tick_of_ne {m : Timer} (h : m.cnt + 1#16 ≠ m.cmp) : m.tick = { m with cnt := m.cnt + 1#16 } := by
  rw [Timer.tick, Bool.eq_false_iff.mpr (mt compareMatch_iff.mp h), Bool.or_false]

/-- A tick that meets the compare value sets the flag (40_timebase.md R89). -/
theorem Timer.tick_of_eq {m : Timer} (h : m.cnt + 1#16 = m.cmp) :
    m.tick = { m with cnt := m.cnt + 1#16, flag := true } := by
  rw [Timer.tick, compareMatch_iff.mpr h, Bool.or_true]

/-- Settles O18: the two cases of a tick. -/
theorem tickOutCountsAndMatches : Obligations.TickOutCountsAndMatches := by
  intro s
  rw [exec_evTickOut]
  by_cases h : s.tmr.cnt + 1#16 = s.tmr.cmp
  · rw [Timer.tick_of_eq h, if_pos h]
    rfl
  · rw [Timer.tick_of_ne h, if_neg h]
    rfl

/-- Input ticks add up (40_timebase.md R88). -/
theorem runInstrs_ticksIn (d : Nat) (s : State) :
    runInstrs (List.replicate d .evTickIn) s = .next (s.setTbIn (s.tbIn + BitVec.ofNat 16 d)) := by
  induction d generalizing s with
  | zero =>
    rw [BitVec.add_zero]
    rfl
  | succ d ih =>
    have hsum : s.tbIn + 1#16 + BitVec.ofNat 16 d = s.tbIn + BitVec.ofNat 16 (d + 1) := by
      rw [BitVec.ofNat_add, BitVec.add_assoc, BitVec.add_comm 1#16]
    rw [List.replicate_succ, runInstrs_cons (exec_evTickIn s), ih, State.setTbIn_tbIn, hsum]
    rfl

/-- Settles O19: the delta of the counter to its old reading is the number of ticks, as a Tick. -/
theorem elapsedCountsTicksModulo65536 : Obligations.ElapsedCountsTicksModulo65536 := by
  intro s d hd he
  refine ⟨_, _, runInstrs_ticksIn d s, command_ready hd he, ?_⟩
  have hdelta : elapsed (s.tbIn + BitVec.ofNat 16 d) s.tbIn = BitVec.ofNat 16 d := by
    rw [elapsed, BitVec.add_comm, BitVec.add_sub_cancel]
  rw [State.setRsp_rsp, resultWord_val, counter, State.setTbIn_tbIn, hdelta, BitVec.toNat_ofNat]

/-- Before the compare value is met, output ticks only count (40_timebase.md R89). -/
theorem runInstrs_ticksOut {s : State} (hcnt : s.tmr.cnt = 0#16) {n : Nat} (hn : n < s.tmr.cmp.toNat) :
    runInstrs (List.replicate n .evTickOut) s = .next (s.setTmr { s.tmr with cnt := BitVec.ofNat 16 n }) := by
  induction n with
  | zero =>
    rw [← hcnt]
    rfl
  | succ n ih =>
    have hlt : s.tmr.cmp.toNat < 65536 := s.tmr.cmp.isLt
    have hne : BitVec.ofNat 16 n + 1#16 ≠ s.tmr.cmp := by
      intro he
      have hnat := congrArg BitVec.toNat he
      rw [← BitVec.ofNat_add, BitVec.toNat_ofNat] at hnat
      omega
    rw [List.replicate_succ', runInstrs_append (ih (by omega)), runInstrs_singleton (exec_evTickOut _),
      State.setTmr_tmr, Timer.tick_of_ne hne, BitVec.ofNat_add]
    rfl

/-- Settles O20: the counter reaches the compare value on the `d`-th tick. -/
theorem compareMatchesOnExactlyTheDthTick : Obligations.CompareMatchesOnExactlyTheDthTick := by
  intro s d hcnt hflag hcmp hd
  subst hcmp
  refine ⟨fun n hn => ⟨_, runInstrs_ticksOut hcnt hn, hflag⟩, ?_⟩
  obtain ⟨n, hn⟩ := Nat.exists_eq_add_of_le' hd
  have heq : BitVec.ofNat 16 n + 1#16 = s.tmr.cmp := by
    rw [← BitVec.ofNat_add, ← hn, BitVec.ofNat_toNat, BitVec.setWidth_eq]
  rw [hn, List.replicate_succ', runInstrs_append (runInstrs_ticksOut hcnt (by omega)),
    runInstrs_singleton (exec_evTickOut _), State.setTmr_tmr, Timer.tick_of_eq heq]
  exact ⟨_, rfl, rfl, heq⟩

/-! ## The edge handler -/

/-- The handler's first step pushes what the input shows (41_edge_capture.md R95). -/
theorem exec_evEdgeIsr {s : State} (hf : s.edgeFlag = true) (hp : s.edgePhase = false) :
    exec .evEdgeIsr s =
      .next ((s.setRing (s.ring.push s.cfg.ringCap { ts := s.tbIn, snap := s.inPort })).setEdgePhase true) := by
  rw [exec, execEvEdgeIsr, (edgeIsrReady_iff s).mpr ⟨hf, hp⟩, takeIf_enabled]

/-- The handler's second step clears both flags (41_edge_capture.md R96). -/
theorem exec_evEdgeIsrClr {s : State} (hp : s.edgePhase = true) :
    exec .evEdgeIsrClr s = .next ((s.setEdgeFlag false).setEdgePhase false) :=
  (edgeHandlerReturnsWithTheFlagClear.2 s).2 hp

theorem Ring.isFull_iff {cap : Nat} {r : Ring} : r.isFull cap = true ↔ (r.wr + 1) % cap = r.rd := beq_iff_eq

/-- Settles O22: the two cases of a push. -/
theorem edgeHandlerPushesOrDrops : Obligations.EdgeHandlerPushesOrDrops := by
  intro s hf hp
  rw [exec_evEdgeIsr hf hp]
  refine ⟨fun hfull => ?_, fun hfree => ?_⟩
  · rw [Ring.push_full (Ring.isFull_iff.mpr hfull)]
    rfl
  · rw [Ring.push_free (Bool.eq_false_iff.mpr (mt Ring.isFull_iff.mp hfree))]
    rfl

/-- Settles O24: the pin change only sets the flag that the return clears. -/
theorem edgeBetweenPushAndClearIsLost : Obligations.EdgeBetweenPushAndClearIsLost := by
  intro s p hf hp hlt
  refine ⟨_, _, exec_evEdgeIsr hf hp, (runInstrs_cons rfl).trans (runInstrs_singleton (exec_evEdgeIsrClr rfl)), rfl,
    rfl, rfl, ?_, rfl, rfl⟩
  exact portBits_of_wf (decide_eq_true hlt)

/-! ## The ring as a queue -/

/-- An index that has wrapped at most once. -/
theorem mod_of_lt_two_mul {x cap : Nat} (h : x < 2 * cap) : x % cap = if x < cap then x else x - cap := by
  split
  next hlt => exact Nat.mod_eq_of_lt hlt
  next hge => rw [Nat.mod_eq_sub_mod (by omega), Nat.mod_eq_of_lt (by omega)]

section ring
variable {cap : Nat} {r : Ring}

/-- The number of events, by whether the write index has wrapped (10_state.md R35). -/
theorem Ring.count_eq (hw : r.wr < cap) (hr : r.rd < cap) :
    r.count cap = if r.rd ≤ r.wr then r.wr - r.rd else r.wr + cap - r.rd := by
  rw [Ring.count, mod_of_lt_two_mul (by omega)]
  split <;> split <;> omega

theorem ringNext_eq {i : Nat} (h : i < cap) : ringNext cap i = if i + 1 < cap then i + 1 else 0 := by
  rw [ringNext, mod_of_lt_two_mul (by omega)]
  split <;> omega

theorem Ring.count_eq_zero_iff (hw : r.wr < cap) (hr : r.rd < cap) : r.count cap = 0 ↔ r.rd = r.wr := by
  rw [Ring.count_eq hw hr]
  split <;> omega

/-- The write index is behind the last event (10_state.md R35). -/
theorem Ring.rd_add_count (hw : r.wr < cap) (hr : r.rd < cap) : (r.rd + r.count cap) % cap = r.wr := by
  rw [Ring.count_eq hw hr, mod_of_lt_two_mul (by split <;> omega)]
  split <;> split <;> omega

/-- A ring is full iff it holds `cap - 1` events (41_edge_capture.md R97). -/
theorem Ring.isFull_iff_count (hw : r.wr < cap) (hr : r.rd < cap) : r.isFull cap = true ↔ cap - 1 ≤ r.count cap := by
  rw [Ring.isFull, beq_iff_eq, ringNext_eq hw, Ring.count_eq hw hr]
  split <;> split <;> omega

theorem Ring.count_push_free (hw : r.wr < cap) (hr : r.rd < cap) (h : r.isFull cap = false) (ev : EdgeEvent) :
    (r.push cap ev).count cap = r.count cap + 1 := by
  have hfree : ringNext cap r.wr ≠ r.rd := fun he => by simp [Ring.isFull, he] at h
  have hnext := ringNext_lt (Nat.zero_lt_of_lt hw) r.wr
  rw [Ring.push_free h, Ring.count_eq hw hr,
    Ring.count_eq (r := { slots := r.slots.set r.wr ev, wr := ringNext cap r.wr, rd := r.rd }) hnext hr]
  dsimp only
  have hwrap := ringNext_eq hw
  split at hwrap <;> split <;> split <;> omega

theorem Ring.count_push_le (hw : r.wr < cap) (hr : r.rd < cap) (ev : EdgeEvent) :
    (r.push cap ev).count cap ≤ r.count cap + 1 := by
  cases h : r.isFull cap with
  | true => rw [Ring.push_full h]; exact Nat.le_succ _
  | false => exact (Ring.count_push_free hw hr h ev).le

theorem Ring.count_pop (hw : r.wr < cap) (hr : r.rd < cap) (h : r.rd ≠ r.wr) :
    Ring.count cap { slots := r.slots, wr := r.wr, rd := ringNext cap r.rd } + 1 = r.count cap := by
  have hnext := ringNext_lt (Nat.zero_lt_of_lt hr) r.rd
  rw [Ring.count_eq hw hr, Ring.count_eq (r := { slots := r.slots, wr := r.wr, rd := ringNext cap r.rd }) hw hnext]
  dsimp only
  rw [ringNext_eq hr]
  split <;> split <;> split <;> omega

/-- A push on a ring with room appends (20_memory.md R67). -/
theorem Ring.events_push_free (hlen : r.slots.length = cap) (hw : r.wr < cap) (hr : r.rd < cap)
    (h : r.isFull cap = false) (ev : EdgeEvent) : (r.push cap ev).events cap = r.events cap ++ [ev] := by
  have hroom : r.count cap < cap - 1 := Nat.lt_of_not_le fun hle => by
    rw [(Ring.isFull_iff_count hw hr).mpr hle] at h
    cases h
  have hlast := Ring.rd_add_count hw hr
  rw [Ring.events, Ring.count_push_free hw hr h, Ring.push_free h, List.range_succ, List.map_append, List.map_singleton,
    Ring.events]
  congr 1
  · refine List.map_congr_left fun k hk => ?_
    have hk := List.mem_range.mp hk
    have hne : (r.rd + k) % cap ≠ r.wr := by
      rw [← hlast, mod_of_lt_two_mul (by omega), mod_of_lt_two_mul (by omega)]
      split <;> split <;> omega
    rw [Ring.slot, Ring.slot, List.getD_eq_getElem?_getD, List.getElem?_set_ne hne.symm, ← List.getD_eq_getElem?_getD]
  · dsimp only
    rw [hlast, Ring.slot_of_get (List.getElem?_set_self (by rw [hlen]; exact hw))]

/-- A ring with events is its oldest one before those of the ring without it (20_memory.md R67). -/
theorem Ring.events_pop (hw : r.wr < cap) (hr : r.rd < cap) (h : r.rd ≠ r.wr) :
    r.events cap = r.slot r.rd :: Ring.events cap { slots := r.slots, wr := r.wr, rd := ringNext cap r.rd } := by
  rw [Ring.events, ← Ring.count_pop hw hr h, List.range_succ_eq_map, List.map_cons, List.map_map, Ring.events,
    Nat.add_zero, Nat.mod_eq_of_lt hr]
  congr 1
  refine List.map_congr_left fun k _ => ?_
  rw [Function.comp_apply, Ring.slot, Ring.slot, ringNext, Nat.mod_add_mod, Nat.succ_eq_add_one, Nat.add_right_comm,
    Nat.add_assoc]

theorem Ring.events_length (cap : Nat) (r : Ring) : (r.events cap).length = r.count cap := by
  rw [Ring.events, List.length_map, List.length_range]

theorem Ring.events_eq_nil_iff (hw : r.wr < cap) (hr : r.rd < cap) : r.events cap = [] ↔ r.rd = r.wr := by
  rw [← List.length_eq_zero_iff, Ring.events_length, Ring.count_eq_zero_iff hw hr]

end ring

/-- Settles O25: a push appends or drops, a pop takes the head. -/
theorem ringIsAFirstInFirstOutQueue : Obligations.RingIsAFirstInFirstOutQueue := by
  intro s hfits
  obtain ⟨hlen, hw, hr, -⟩ := hfits
  refine ⟨Ring.events_eq_nil_iff hw hr, fun hf hp => ⟨_, exec_evEdgeIsr hf hp, ?push⟩, fun hd hp ev rest hev => ?pop⟩
  case push =>
    rw [State.setEdgePhase_ring, State.setRing_ring, Ring.events_length]
    cases hfull : s.ring.isFull s.cfg.ringCap with
    | true => rw [Ring.push_full hfull, if_neg ((Ring.isFull_iff_count hw hr).mp hfull).not_gt]
    | false =>
      have hroom := mt (Ring.isFull_iff_count hw hr).mpr (Bool.eq_false_iff.mp hfull)
      rw [Ring.events_push_free hlen hw hr hfull, if_pos (Nat.lt_of_not_le hroom)]
  case pop =>
    have hne : s.ring.rd ≠ s.ring.wr := fun he => by simp [(Ring.events_eq_nil_iff hw hr).mpr he] at hev
    rw [Ring.events_pop hw hr hne] at hev
    obtain ⟨rfl, rfl⟩ := List.cons.inj hev
    exact ⟨_, exec_evDecodeOne ((decodeOneReady_iff s).mpr ⟨hd, hne, hp⟩), rfl, rfl⟩

end Sys2Proof.Machine
end

section
/-! The servo commands and the answers of all commands (20_memory.md R63; 44_servo_output.md R124, R125, R136;
60_exceptions.md R138, R139). -/

namespace Sys2Proof.Machine

/-- Settles O35: a ready read answers the channel in range, the failure out of range. -/
theorem srvGetReadsOneChannel : Obligations.SrvGetReadsOneChannel := by
  refine fun s ch hd he => ⟨fun x hc hx => ?_, fun hc => ?_⟩
  · rw [exec, execSrvGet, command_ready hd he, (srvInRange_iff ..).mpr hc, if_pos rfl, servoAt_of_get hx,
      resultWord_act]
    rfl
  · rw [exec, execSrvGet, command_ready hd he, if_neg (mt (srvInRange_iff ..).mp hc.not_gt)]
    rfl

/-- A ready enable in range stores the flag (44_servo_output.md R125). -/
theorem execCfgEnable_inRange {s : State} {ch : Channel} {x : Servo} (en : Bool) (hd : s.decPhase = false)
    (he : s.edgePhase = false) (hc : ch.toNat < s.cfg.nServo) (hx : s.srv[ch.toNat]? = some x) :
    execCfgEnable ch en s = .next ((s.setSrv (s.srv.set ch.toNat { x with enabled := en })).setRsp doneWord) :=
  setChannel_inRange _ hd he hc hx

/-- A ready enable out of range only answers the failure (44_servo_output.md R125). -/
theorem execCfgEnable_outOfRange {s : State} {ch : Channel} (en : Bool) (hd : s.decPhase = false)
    (he : s.edgePhase = false) (hc : s.cfg.nServo ≤ ch.toNat) : execCfgEnable ch en s = .next (s.setRsp failWord) :=
  setChannel_outOfRange _ hd he hc

/-- Settles O36: a ready write in range writes one element of the channel array, one out of range only answers. -/
theorem cfgEnableWritesOneFlag : Obligations.CfgEnableWritesOneFlag := by
  refine fun s ch en hlen hd he => ⟨fun hc => ?inRange, execCfgEnable_outOfRange en hd he⟩
  case inRange =>
    have hlt : ch.toNat < s.srv.length := hlen ▸ hc
    have hx := List.getElem?_eq_getElem hlt
    exact ⟨_, _, hx, execCfgEnable_inRange en hd he hc hx, rfl, List.length_set,
      List.getElem?_set_self hlt, fun c hne => List.getElem?_set_ne hne.symm⟩

/-- A command whose answer does not depend on `RSP` can be repeated (20_memory.md R63). -/
theorem command_repeatable {w : State → Word32} (hw : ∀ s x, w (s.setRsp x) = w s) {s t : State}
    (h : command s s (w s) = .next t) : t = { s with rsp := t.rsp } ∧ command t t (w t) = .next t := by
  obtain ⟨hr, rfl⟩ | ⟨-, rfl⟩ := command_cases h
  · refine ⟨rfl, ?_⟩
    have hr' : taskReady (s.setRsp (w s)) = true := hr
    rw [command_enabled hr', hw]
    rfl
  · exact ⟨rfl, h⟩

/-- Settles O37: the four answers are functions of the state without `RSP`. -/
theorem readCommandsAreRepeatable : Obligations.ReadCommandsAreRepeatable := by
  rintro i s t (⟨sel, rfl⟩ | ⟨sel, since, rfl⟩ | ⟨ch, rfl⟩ | ⟨ch, rfl⟩) h
  · exact command_repeatable (w := fun s => resultWord true false false (counter sel s))
      (fun _ _ => by cases sel <;> rfl) h
  · exact command_repeatable (w := fun s => resultWord true false false (elapsed (counter sel s) since))
      (fun _ _ => by cases sel <;> rfl) h
  · exact command_repeatable (w := fun s =>
      if ppmInRange s.cfg ch then resultWord true false s.ppm.active (s.ppm.pulse ch.toNat) else failWord)
      (fun _ _ => rfl) h
  · exact command_repeatable (w := fun s =>
      if srvInRange s.cfg ch then
        resultWord true false (servoAt s.srv ch.toNat).active (servoAt s.srv ch.toNat).timerValue
      else failWord) (fun _ _ => rfl) h

/-- The pin of a channel that is not dealt is in no step's mask (43_schedule_builder.md R121). -/
theorem scheduleSteps_mask_and_pin {cfg : Config} {srv : List Servo} (ha : Admitted cfg) {c : Nat} (hc : c < cfg.nServo)
    (hnot : c ∉ dealtChannels cfg srv) {st : PulseStep} (hst : st ∈ scheduleSteps cfg srv) :
    st.mask &&& cfg.pinMask c = 0 := by
  obtain ⟨b, hbit⟩ := exists_isPinBit ha hc
  have hpins : (orMasks ((dealtChannels cfg srv).map cfg.pinMask)).testBit b = false := by
    refine Bool.eq_false_iff.mpr fun h => ?_
    obtain ⟨m, hm, hmb⟩ := (testBit_orMasks _ _).mp h
    obtain ⟨d, hd, rfl⟩ := List.mem_map.mp hm
    rw [hbit.others d (mem_dealtChannels.mp hd).1, decide_eq_true_eq] at hmb
    exact hnot (hmb ▸ hd)
  rw [hbit.mask, and_two_pow_eq_zero_iff, ← scheduleSteps_withinPins (one_le_kLanes ha) st hst, Nat.testBit_and, hpins,
    Bool.and_false]

/-- Settles O45: a channel that is disabled is neither dealt nor driven by the schedule published after it. -/
theorem disabledChannelLeavesThePublishedSchedule : Obligations.DisabledChannelLeavesThePublishedSchedule := by
  intro s ch hi hc hd he hp
  obtain ⟨hlen, -⟩ := hi.srv
  have hlt : ch.toNat < s.srv.length := hlen ▸ hc
  have hoff : (servoAt (s.srv.set ch.toNat { s.srv[ch.toNat] with enabled := false }) ch.toNat).enabled = false := by
    rw [servoAt_of_get (List.getElem?_set_self hlt)]
  have hset := execCfgEnable_inRange false hd he hc (List.getElem?_eq_getElem hlt)
  refine ⟨_, (runInstrs_cons (i := .cfgEnable ch false) hset).trans
    (runInstrs_singleton (i := .srvPost) (execSrvPost_free hd he hp)), rfl, ?masks, ?drive, rfl, rfl⟩
  case masks =>
    rw [State.setRsp_sched, State.setSched_sched, Sched.publish_standby, Buffer.load_len, Buffer.load_take]
    exact fun st => scheduleSteps_mask_and_pin hi.admitted hc fun hdealt =>
      Bool.eq_false_iff.mp hoff (mem_dealtChannels.mp hdealt).2.1
  case drive =>
    rw [State.setRsp_sched, State.setSched_sched, Sched.publish_standby, Buffer.load_drive]
    exact not_not.mp fun hdriven =>
      Bool.eq_false_iff.mp hoff ((driveMaskHoldsTheEnabledPins _ _ _ hi.admitted hc).mp hdriven)

/-! ## What a command reports -/

/-- A word reports its condition: ILL is the illegal word's, and OK is the absence of a condition, but for a command
that never succeeds (60_exceptions.md R138, R139). -/
def ReportsCondition (cond : Option Condition) (refuses : Prop) (w : Word32) : Prop :=
  (w.getLsbD 30 = true ↔ cond = some .illegal) ∧ (w.getLsbD 31 = false ↔ cond.isSome = true ∨ refuses)

theorem reportsCondition_done {refuses : Prop} (h : ¬ refuses) (act : Bool) (val : Tick) :
    ReportsCondition none refuses (resultWord true false act val) := by
  rw [ReportsCondition, resultWord_illBit, resultWord_okBit]
  simp [h]

theorem reportsCondition_fail {cond : Condition} (h : cond ≠ .illegal) (refuses : Prop) :
    ReportsCondition (some cond) refuses failWord := by
  rw [ReportsCondition, failWord, resultWord_illBit, resultWord_okBit]
  simp [h]

theorem reportsCondition_illegal (refuses : Prop) : ReportsCondition (some .illegal) refuses illegalWord := by
  rw [ReportsCondition, illegalWord, resultWord_illBit, resultWord_okBit]
  simp

theorem reportsCondition_refused {refuses : Prop} (h : refuses) : ReportsCondition none refuses failWord := by
  rw [ReportsCondition, failWord, resultWord_illBit, resultWord_okBit]
  simp [h]

/-- The servo writes report a channel out of range (44_servo_output.md R123, R125). -/
theorem setChannel_reports {s : State} {ch : Channel} (f : Servo → Servo) (hd : s.decPhase = false)
    (he : s.edgePhase = false) {refuses : Prop} (hr : ¬ refuses) :
    ∃ t, setChannel ch f s = .next t ∧
      ReportsCondition (if srvInRange s.cfg ch then none else some .range) refuses t.rsp := by
  unfold setChannel
  split
  · exact ⟨_, command_ready hd he, reportsCondition_done hr ..⟩
  · exact ⟨_, command_ready hd he, reportsCondition_fail (by decide) _⟩

/-- Every command reports the condition it raises. -/
theorem exec_reports {i : Instr} {w : Word32} (hi : encode i = .command w) {s : State} (hd : s.decPhase = false)
    (he : s.edgePhase = false) :
    ∃ t, exec i s = .next t ∧ ReportsCondition (instrCondition i s) (∃ ch v a, i = .ppmSet ch v a) t.rsp := by
  cases i with
  | tbNow sel => exact ⟨_, command_ready hd he, reportsCondition_done (by simp) ..⟩
  | tbElapsed sel since => exact ⟨_, command_ready hd he, reportsCondition_done (by simp) ..⟩
  | ppmPre => exact ⟨_, command_ready hd he, reportsCondition_done (by simp) ..⟩
  | ppmGet ch =>
    refine ⟨_, command_ready hd he, ?_⟩
    rw [State.setRsp_rsp, instrCondition]
    split
    · exact reportsCondition_done (by simp) ..
    · exact reportsCondition_fail (by decide) _
  | ppmSet ch v a => exact ⟨_, command_ready hd he, reportsCondition_refused ⟨ch, v, a, rfl⟩⟩
  | ppmPost => exact ⟨_, command_ready hd he, reportsCondition_done (by simp) ..⟩
  | srvPre => exact ⟨_, command_ready hd he, reportsCondition_done (by simp) ..⟩
  | srvGet ch =>
    refine ⟨_, command_ready hd he, ?_⟩
    rw [State.setRsp_rsp, instrCondition]
    split
    · exact reportsCondition_done (by simp) ..
    · exact reportsCondition_fail (by decide) _
  | srvSet ch v a =>
    rw [exec, execSrvSet, instrCondition]
    exact setChannel_reports _ hd he (by simp)
  | srvPost =>
    rw [exec, instrCondition]
    cases hp : s.sched.nextPending with
    | true => exact ⟨_, execSrvPost_pending hd he hp, reportsCondition_fail (by decide) _⟩
    | false => exact ⟨_, execSrvPost_free hd he hp, reportsCondition_done (by simp) ..⟩
  | cfgEnable ch en =>
    rw [exec, execCfgEnable, instrCondition]
    exact setChannel_reports _ hd he (by simp)
  | _ => cases hi

/-- Settles O58: a word is illegal and says so, or is a command, which reports its condition. -/
theorem resultWordReportsTheCondition : Obligations.ResultWordReportsTheCondition := by
  intro s w hd he
  cases h : decode (.command w) with
  | ok i =>
    obtain ⟨t, ht, hill, hok⟩ := exec_reports (encodeOfDecodeIsTheWord w i h) hd he
    refine ⟨t, by rw [runOffer_of_decode h, ht], ?_⟩
    rw [offerCondition, h]
    refine ⟨hill, hok.trans (or_congr_right (exists₃_congr fun ch v a => ?_))⟩
    exact ⟨congrArg _, Except.ok.inj⟩
  | error e =>
    refine ⟨_, ((illegal_command (by simp [h]) s).2).trans (command_ready hd he), ?_⟩
    rw [offerCondition, h]
    obtain rfl | rfl := decode_command_error h <;> exact reportsCondition_illegal _

end Sys2Proof.Machine
end

section
/-! The waveform and the period of a schedule that is served tick by tick (44_servo_output.md R134). -/

namespace Sys2Proof.Machine

/-! ## The start of a step -/

/-- The ticks before step `k` of a schedule (43_schedule_builder.md R113). -/
def stepStart (steps : List PulseStep) (k : Nat) : Nat := totalTicks (steps.take k)

section stepStart
variable {steps : List PulseStep} {st : PulseStep} {k : Nat}

theorem totalTicks_append (xs ys : List PulseStep) : totalTicks (xs ++ ys) = totalTicks xs + totalTicks ys := by
  rw [totalTicks, List.map_append, List.sum_append, totalTicks, totalTicks]

@[simp] theorem stepStart_zero (steps : List PulseStep) : stepStart steps 0 = 0 := rfl

@[simp] theorem stepStart_cons (st : PulseStep) (steps : List PulseStep) (k : Nat) :
    stepStart (st :: steps) (k + 1) = st.ticks.toNat + stepStart steps k := by
  rw [stepStart, List.take_succ_cons, totalTicks_cons, stepStart]

theorem stepStart_succ (h : steps[k]? = some st) : stepStart steps (k + 1) = stepStart steps k + st.ticks.toNat := by
  rw [stepStart, List.take_add_one, h, totalTicks_append, stepStart]
  rfl

theorem stepStart_le_totalTicks (steps : List PulseStep) (k : Nat) : stepStart steps k ≤ totalTicks steps := by
  conv_rhs => rw [← List.take_append_drop k steps, totalTicks_append]
  exact Nat.le_add_right ..

theorem stepStart_of_length_le (h : steps.length ≤ k) : stepStart steps k = totalTicks steps := by
  rw [stepStart, List.take_of_length_le h]

end stepStart

/-! ## A schedule under way -/

section firing
variable (s : State)

theorem fire_tmr : (fire s).tmr =
    { cnt := 0#16, cmp := (firingStep s).ticks, flag := false
      stepIdx := if s.tmr.stepIdx + 1 = s.sched.current.len then 0 else s.tmr.stepIdx + 1 } := by
  by_cases h : s.tmr.stepIdx + 1 = s.sched.current.len
  · rw [fire, atLastStep_iff.mpr h, if_pos h]
    rfl
  · rw [fire_inside h, if_neg h]

theorem fire_outPort : (fire s).outPort = s.outPort ^^^ (firingStep s).mask := rfl

end firing

/-- Step `k` of the schedule in `b` was fired `e` ticks ago, and each firing before it on its tick. -/
structure Playing (b : Buffer) (k e : Nat) (s : State) : Prop where
  lt : k < b.len
  elapsed : e < (b.step k).ticks.toNat
  tmr : s.tmr = { cnt := BitVec.ofNat 16 e, cmp := (b.step k).ticks, flag := false
                  stepIdx := if k + 1 = b.len then 0 else k + 1 }
  latch : s.outPort = xorMasks (b.masks.take (k + 1))
  current : k + 1 < b.len → s.sched.current = b

section playing
variable {b : Buffer} {k e n : Nat} {s : State}

/-- A firing starts the step it executes. -/
theorem playing_fire (hlen : b.len ≤ b.steps.length) (hticks : ∀ st ∈ b.steps.take b.len, 1 ≤ st.ticks.toNat)
    (hcur : s.sched.current = b) (hk : s.tmr.stepIdx = k) (hlt : k < b.len)
    (hlatch : s.outPort = xorMasks (b.masks.take k)) : Playing b k 0 (fire s) := by
  have hst : firingStep s = b.step k := by rw [firingStep, hcur, hk]
  refine ⟨hlt, hticks _ (Buffer.step_mem_take hlt hlen), ?_, ?_, fun hin => ?_⟩
  · rw [fire_tmr, hst, hcur, hk]
  · rw [fire_outPort, hst, hlatch, Buffer.masks_take_succ hlt hlen, xorMasks_append, xorMasks_cons, xorMasks_nil,
      Nat.xor_zero]
  · rw [fire_inside (by rw [hcur, hk]; exact hin.ne)]
    exact hcur

/-- The next tick of a schedule under way meets the compare value at the end of its step. -/
theorem Playing.tick (h : Playing b k e s) :
    s.tmr.tick = { s.tmr with cnt := BitVec.ofNat 16 (e + 1), flag := decide (e + 1 = (b.step k).ticks.toNat) } := by
  have helapsed := h.elapsed
  have hlt := (b.step k).ticks.isLt
  have hcmp : s.tmr.cnt + 1#16 = s.tmr.cmp ↔ e + 1 = (b.step k).ticks.toNat := by
    rw [h.tmr, ← BitVec.ofNat_add, ← BitVec.toNat_inj, BitVec.toNat_ofNat, Nat.mod_eq_of_lt (by omega)]
  by_cases hend : e + 1 = (b.step k).ticks.toNat
  · rw [Timer.tick_of_eq (hcmp.mpr hend), decide_eq_true hend, h.tmr, BitVec.ofNat_add]
  · rw [Timer.tick_of_ne (mt hcmp.mp hend), decide_eq_false hend, h.tmr, BitVec.ofNat_add]

theorem Playing.step_get (h : Playing b k e s) (hlen : b.len ≤ b.steps.length) :
    (b.steps.take b.len)[k]? = some (b.step k) := Buffer.take_getElem? h.lt hlen

/-- One tick and the firing it makes due, if the schedule has not ended. -/
theorem Playing.serve (h : Playing b k e s) (hlen : b.len ≤ b.steps.length)
    (hticks : ∀ st ∈ b.steps.take b.len, 1 ≤ st.ticks.toNat)
    (hn : stepStart (b.steps.take b.len) k + e + 1 < totalTicks (b.steps.take b.len)) :
    ∃ t k' e', runInstrs [.evTickOut, .evTimerIsr] s = .next t ∧ Playing b k' e' t ∧
      stepStart (b.steps.take b.len) k' + e' = stepStart (b.steps.take b.len) k + e + 1 := by
  have htick := h.tick
  have hsucc := stepStart_succ (h.step_get hlen)
  rw [runInstrs_cons (exec_evTickOut s), htick]
  by_cases hend : e + 1 = (b.step k).ticks.toNat
  · have hin : k + 1 < b.len := by
      refine Nat.lt_of_not_le fun hle => ?_
      have htotal := stepStart_of_length_le (steps := b.steps.take b.len) (k := k + 1)
        ((List.length_take_le ..).trans hle)
      omega
    rw [decide_eq_true hend, runInstrs_singleton (exec_evTimerIsr rfl)]
    refine ⟨_, k + 1, 0, rfl, playing_fire hlen hticks (h.current hin) ?_ hin h.latch, by omega⟩
    rw [State.setTmr_tmr, h.tmr]
    exact if_neg hin.ne
  · rw [decide_eq_false hend, runInstrs_singleton (exec_disabled rfl)]
    have helapsed := h.elapsed
    exact ⟨_, k, e + 1, rfl, ⟨h.lt, by omega, by rw [State.setTmr_tmr, h.tmr], h.latch, h.current⟩, by omega⟩

/-- `n` ticks of a schedule under way, each firing served on its tick. -/
theorem Playing.run (h : Playing b k e s) (hlen : b.len ≤ b.steps.length)
    (hticks : ∀ st ∈ b.steps.take b.len, 1 ≤ st.ticks.toNat)
    (hn : stepStart (b.steps.take b.len) k + e + n < totalTicks (b.steps.take b.len)) :
    ∃ t k' e', runInstrs (ticksServiced n) s = .next t ∧ Playing b k' e' t ∧
      stepStart (b.steps.take b.len) k' + e' = stepStart (b.steps.take b.len) k + e + n := by
  induction n generalizing k e s with
  | zero => exact ⟨s, k, e, rfl, h, rfl⟩
  | succ n ih =>
    obtain ⟨u, k₁, e₁, hu, hplay, hsum⟩ := h.serve hlen hticks (by omega)
    obtain ⟨t, k₂, e₂, ht, hplay', hsum'⟩ := ih hplay (by omega)
    exact ⟨t, k₂, e₂, (runInstrs_append hu).trans ht, hplay', by omega⟩

/-- From the first firing, `n` ticks into the schedule. -/
theorem playing_of_first_firing (hi : s.Inv) (ho : s.OutInv) (hf : s.tmr.flag = true) (hidx : s.tmr.stepIdx = 0)
    (hn : n < totalTicks (s.sched.current.steps.take s.sched.current.len)) :
    ∃ t k e, runInstrs (.evTimerIsr :: ticksServiced n) s = .next t ∧ Playing s.sched.current k e t ∧
      stepStart (s.sched.current.steps.take s.sched.current.len) k + e = n := by
  obtain ⟨hpos, -, hticks⟩ := hi.current
  have hfirst : Playing s.sched.current 0 0 (fire s) :=
    playing_fire hi.current_len_le hticks rfl hidx hpos (by rw [ho.latch, hidx])
  obtain ⟨t, k, e, ht, hplay, hsum⟩ := hfirst.run (n := n) hi.current_len_le hticks (by simpa using hn)
  exact ⟨t, k, e, (runInstrs_cons (exec_evTimerIsr hf)).trans ht, hplay, by simpa using hsum⟩

end playing

/-- Settles O47: one tick before the period is over the last step is in its last tick. -/
theorem schedulePeriodIsTheRefreshPeriod : Obligations.SchedulePeriodIsTheRefreshPeriod := by
  intro s hi ho hf hidx htotal
  have hpos := refreshPeriod_pos hi.admitted
  obtain ⟨-, -, hticks⟩ := hi.current
  obtain ⟨t, k, e, ht, hplay, hsum⟩ :=
    playing_of_first_firing (n := s.cfg.refreshPeriod - 1) hi ho hf hidx (by omega)
  have hsucc := stepStart_succ (hplay.step_get hi.current_len_le)
  have hle := stepStart_le_totalTicks (s.sched.current.steps.take s.sched.current.len) (k + 1)
  have helapsed := hplay.elapsed
  have hend : e + 1 = (s.sched.current.step k).ticks.toNat := by omega
  have hlast : k + 1 = s.sched.current.len := by
    refine Nat.le_antisymm hplay.lt (Nat.le_of_not_lt fun hin => ?_)
    have hnext := stepStart_succ (Buffer.take_getElem? hin hi.current_len_le)
    have hone := hticks _ (Buffer.step_mem_take hin hi.current_len_le)
    have hle' := stepStart_le_totalTicks (s.sched.current.steps.take s.sched.current.len) (k + 1 + 1)
    omega
  have hrun : runInstrs (.evTimerIsr :: (ticksServiced (s.cfg.refreshPeriod - 1) ++ [.evTickOut])) s =
      .next (t.setTmr t.tmr.tick) := (runInstrs_append ht).trans (runInstrs_singleton (exec_evTickOut t))
  refine ⟨_, hrun, ?_, ?_, ?_⟩
  · rw [State.setTmr_tmr, hplay.tick]
    exact decide_eq_true hend
  · rw [State.setTmr_tmr, hplay.tick, hplay.tmr]
    exact if_pos hlast
  · rw [State.setTmr_outPort, hplay.latch, hlast, ← Buffer.masks_length hi.current_len_le, List.take_length, ho.current]

/-! ## The pin between its toggles -/

/-- No toggle comes before the sequence starts. -/
theorem le_of_mem_toggleTimes {pin : PortMask} {t x : Nat} {steps : List PulseStep}
    (h : x ∈ toggleTimes pin t steps) : t ≤ x := by
  induction steps generalizing t with
  | nil => cases h
  | cons st rest ih =>
    rw [toggleTimes] at h
    obtain h | h := List.mem_append.mp h
    · split at h
      · cases h
      · exact (List.mem_singleton.mp h).ge
    · exact (Nat.le_add_right ..).trans (ih h)

/-- The number of a pin's toggles up to a time. -/
def togglesUpTo (b t n : Nat) (steps : List PulseStep) : Nat := (toggleTimes (2 ^ b) t steps).countP (· ≤ n)

theorem togglesUpTo_cons (b t n : Nat) (st : PulseStep) (rest : List PulseStep) (h : t ≤ n) :
    togglesUpTo b t n (st :: rest) =
      (if st.mask.testBit b then 1 else 0) + togglesUpTo b (t + st.ticks.toNat) n rest := by
  rw [togglesUpTo, toggleTimes_cons, List.countP_append, togglesUpTo]
  congr 1
  split
  · simp [h]
  · rfl

theorem togglesUpTo_of_lt {b t n : Nat} (steps : List PulseStep) (h : n < t) : togglesUpTo b t n steps = 0 := by
  refine List.countP_eq_zero.mpr fun x hx => ?_
  have := le_of_mem_toggleTimes hx
  simp only [decide_eq_true_eq]
  omega

/-- While step `k` lasts, a pin is high iff it has been toggled an odd number of times. -/
theorem testBit_masks_take {b k n t : Nat} {st : PulseStep} {steps : List PulseStep} (hk : steps[k]? = some st)
    (hge : stepStart steps k ≤ n) (hlt : n < stepStart steps k + st.ticks.toNat) :
    (xorMasks ((steps.map PulseStep.mask).take (k + 1))).testBit b =
      decide (togglesUpTo b t (t + n) steps % 2 = 1) := by
  induction steps generalizing k n t with
  | nil => cases hk
  | cons x rest ih =>
    rw [togglesUpTo_cons _ _ _ _ _ (Nat.le_add_right ..), List.map_cons, List.take_succ_cons, testBit_xorMasks_cons]
    cases k with
    | zero =>
      obtain rfl : x = st := Option.some.inj hk
      rw [stepStart_zero, Nat.zero_add] at hlt
      rw [togglesUpTo_of_lt rest (by omega)]
      cases x.mask.testBit b <;> simp
    | succ k =>
      rw [stepStart_cons] at hge hlt
      obtain ⟨m, rfl⟩ := Nat.exists_eq_add_of_le (Nat.le_of_add_right_le hge)
      rw [ih (n := m) (t := t + x.ticks.toNat) hk (by omega) (by omega), Nat.add_assoc]
      cases x.mask.testBit b
      · simp
      · rw [Bool.true_xor, if_pos rfl, ← decide_not, decide_eq_decide]
        omega

/-- Two toggles make one pulse. -/
theorem pulse_countP_odd (start width n : Nat) :
    [start, start + width].countP (· ≤ n) % 2 = 1 ↔ start ≤ n ∧ n < start + width := by
  simp only [List.countP_cons, List.countP_nil, decide_eq_true_eq]
  split <;> split <;> omega

/-- Settles O46: the pin is high after an odd number of its toggles, and a build toggles it at its pulse's ends. -/
theorem waveformOfABuiltSchedule : Obligations.WaveformOfABuiltSchedule := by
  intro s srv c n hi ho hf hidx hlen hb _ hsteps hc hn
  obtain ⟨b, hbit⟩ := exists_isPinBit hi.admitted hc
  have htotal := (scheduleSteps_fills hi.admitted hlen hb).2
  obtain ⟨t, k, e, ht, hplay, hsum⟩ := playing_of_first_firing (n := n) hi ho hf hidx (by rw [hsteps, htotal]; exact hn)
  refine ⟨t, ht, ?_⟩
  have hget := hplay.step_get hi.current_len_le
  have helapsed := hplay.elapsed
  rw [hsteps] at hget hsum
  have hlatch : t.outPort.testBit b =
      decide ((toggleTimes (s.cfg.pinMask c) 0 (scheduleSteps s.cfg srv)).countP (· ≤ n) % 2 = 1) := by
    have hodd := testBit_masks_take (b := b) (n := n) (t := 0) hget (by omega) (by omega)
    rwa [Nat.zero_add, togglesUpTo, ← hbit.mask, ← hsteps, ← Buffer.masks, ← hplay.latch, hsteps] at hodd
  rw [hbit.mask, ne_eq, and_two_pow_eq_zero_iff, Bool.not_eq_false, hlatch, decide_eq_true_eq]
  constructor
  · intro hodd
    by_cases hdealt : c ∈ dealtChannels s.cfg srv
    · obtain ⟨j, hj⟩ := List.mem_iff_getElem?.mp hdealt
      rw [toggleTimes_of_dealt hi.admitted hlen hb hj, pulse_countP_odd] at hodd
      exact ⟨j, hj, hodd⟩
    · rw [toggleTimes_of_not_dealt hi.admitted hlen hb hc hdealt] at hodd
      cases hodd
  · rintro ⟨j, hj, hpulse⟩
    rw [toggleTimes_of_dealt hi.admitted hlen hb hj, pulse_countP_odd]
    exact hpulse

end Sys2Proof.Machine
end

section
/-! Runs of the machine (60_exceptions.md R146, R158, R160): the move a step makes, the trace of a run, and the
fairness of runs. -/

namespace Sys2Proof.Machine

/-! ## Runs -/

section run
variable {k m : Nat} {s t u : State}

theorem run_zero (s : State) : Host.Core.run Sys2Proof.core 0 s = .next s := rfl

theorem run_succ (h : step s = .next t) :
    Host.Core.run Sys2Proof.core (k + 1) s = Host.Core.run Sys2Proof.core k t := by
  have h : Sys2Proof.core.step s = .next t := h
  simp only [Host.Core.run, h]

theorem run_succ_cases (h : Host.Core.run Sys2Proof.core (k + 1) s = .next t) :
    ∃ u, step s = .next u ∧ Host.Core.run Sys2Proof.core k u = .next t := by
  cases hs : step s with
  | next u => exact ⟨u, rfl, by rwa [run_succ hs] at h⟩
  | fault r => exact nomatch r
  | refused r =>
    have hs : Sys2Proof.core.step s = .refused r := hs
    exact absurd h (by simp [Host.Core.run, hs])

/-- Some number of steps from `s` ends in a state with the property. -/
def Reaches (s : State) (P : State → Prop) : Prop := ∃ k t, Host.Core.run Sys2Proof.core k s = .next t ∧ P t

theorem Reaches.now {P : State → Prop} (h : P s) : Reaches s P := ⟨0, s, run_zero s, h⟩

theorem Reaches.after {P : State → Prop} (hs : step s = .next t) (h : Reaches t P) : Reaches s P := by
  obtain ⟨k, u, hu, hP⟩ := h
  exact ⟨k + 1, u, (run_succ hs).trans hu, hP⟩

theorem Reaches.bind {P Q : State → Prop} (h : Reaches s P) (hPQ : ∀ t, P t → Reaches t Q) : Reaches s Q := by
  obtain ⟨k, u, hu, hP⟩ := h
  induction k generalizing s with
  | zero => cases hu; exact hPQ _ hP
  | succ k ih =>
    obtain ⟨v, hv, hrun⟩ := run_succ_cases hu
    exact .after hv (ih hrun)

theorem Reaches.mono {P Q : State → Prop} (h : Reaches s P) (hPQ : ∀ t, P t → Q t) : Reaches s Q := by
  obtain ⟨k, t, ht, hP⟩ := h
  exact ⟨k, t, ht, hPQ t hP⟩

end run

/-! ## The move of a step -/

/-- What a step from `s` to `t` does: one constructor per kind of step, with the instruction it runs. -/
inductive StepCase (s t : State) : Prop where
  | offer (o : Offer) (pre post : List Offer) (i : Instr) (hs : s.offers = pre ++ o :: post) (hm : nextMove s = some o)
      (hi : decode o = .ok i) (h : exec i (s.setOffers (pre ++ post)) = .next t)
  | illegal (w : Word32) (pre post : List Offer) (hs : s.offers = pre ++ .command w :: post)
      (hm : nextMove s = some (.command w)) (h : execIllegal (s.setOffers (pre ++ post)) = .next t)
  | handler (i : Instr) (hh : handlerStep s = some i) (hm : nextMove s = some (encode i)) (h : exec i s = .next t)
  | drain (i : Instr) (hh : handlerStep s = none) (hd : drainStep s = some i) (hm : nextMove s = some (encode i))
      (h : exec i s.refill = .next t)
  | idle (hh : handlerStep s = none) (hd : drainStep s = none) (hm : nextMove s = none) (h : t = s.refill)

theorem nextMove_of_takeOffer {s : State} {o : Offer} {rest : List Offer} (h : takeOffer s s.offers = some (o, rest)) :
    nextMove s = some o := by
  rw [nextMove, h]

theorem nextMove_of_none {s : State} (h : takeOffer s s.offers = none) : nextMove s = (pendingStep s).map encode := by
  rw [nextMove, h]

/-- Every step is of one of these kinds. -/
theorem stepCase {s t : State} (h : step s = .next t) : StepCase s t := by
  obtain ⟨o, rest, ht, hs⟩ | ⟨ht, i, hh, hs⟩ | ⟨ht, hh, i, hd, hs⟩ | ⟨ht, hh, hd, hs⟩ := step_cases s
  · obtain ⟨pre, post, hl, rfl, -, -⟩ := takeOffer_some ht
    have hm := nextMove_of_takeOffer ht
    obtain ⟨i, hi, hx⟩ | ⟨⟨w, rfl⟩, hx⟩ := runOffer_cases (hs ▸ h)
    · exact .offer o pre post i hl hm hi hx
    · exact .illegal w pre post hl hm hx
  · exact .handler i hh (by rw [nextMove_of_none ht, pendingStep, hh]; rfl) (hs ▸ h)
  · exact .drain i hh hd (by rw [nextMove_of_none ht, pendingStep, hh]; exact congrArg _ hd) (hs ▸ h)
  · exact .idle hh hd (by rw [nextMove_of_none ht, pendingStep, hh]; exact congrArg _ hd)
      (Host.Outcome.next.inj (h.symm.trans hs))

/-! ## The trace -/

/-- An offer writes `RSP` as the instruction it stands for does. -/
theorem writesRsp_of_decode {o : Offer} {i : Instr} (h : decode o = .ok i) : writesRsp o = writesRsp (encode i) := by
  have hback := decodeOfEncodeIsTheInstruction i
  cases o with
  | command w => rw [encodeOfDecodeIsTheWord w i h]
  | event c p =>
    rw [writesRsp, h]
    cases hi : encode i with
    | command w =>
      rw [decode, decodeEventCode] at h
      split at h <;> cases h <;> cases hi
    | event c' p' => rw [writesRsp, ← hi, hback]

/-- An instruction that changes `RSP` is one that writes it (10_state.md R55; log 35). -/
theorem exec_rsp_of_not_writesRsp {i : Instr} {s t : State} (h : exec i s = .next t)
    (hw : writesRsp (encode i) = false) : t.rsp = s.rsp := by
  by_cases hi : i = .evReset
  · rw [hi] at hw
    cases hw
  · obtain ⟨-, -, -, -, -, -, -, -, -, -, -, -, -, -, hrsp⟩ := eachElementHasItsWriters i s t hi h
    refine not_not.mp fun hne => ?_
    obtain ⟨w, hc⟩ := hrsp hne
    rw [hc] at hw
    cases hw

/-- A step whose move does not write `RSP` keeps it. -/
theorem step_rsp {s t : State} (h : step s = .next t) (hw : (nextMove s).any writesRsp = false) : t.rsp = s.rsp := by
  cases stepCase h with
  | offer o pre post i hs hm hi hx =>
    rw [hm, Option.any_some, writesRsp_of_decode hi] at hw
    exact (exec_rsp_of_not_writesRsp hx hw).trans (State.setOffers_rsp ..)
  | illegal w pre post hs hm hx =>
    rw [hm] at hw
    cases hw
  | handler i hh hm hx =>
    rw [hm, Option.any_some] at hw
    exact exec_rsp_of_not_writesRsp hx hw
  | drain i hh hd hm hx =>
    rw [hm, Option.any_some] at hw
    exact (exec_rsp_of_not_writesRsp hx hw).trans (State.setOffers_rsp ..)
  | idle hh hd hm hx => rw [hx]; rfl

theorem traceRun_succ {k : Nat} {s u : State} (h : step s = .next u) (tr : Trace) :
    traceRun (k + 1) s tr = traceRun k u (tr.record (nextMove s) s u) := by
  rw [traceRun, h]

theorem movesRun_succ {k : Nat} {s u : State} (h : step s = .next u) :
    movesRun (k + 1) s = (nextMove s).toList ++ movesRun k u := by
  rw [movesRun, h]

theorem countP_toList (p : Offer → Bool) (m : Option Offer) : m.toList.countP p = if m.any p then 1 else 0 := by
  cases m with
  | none => rfl
  | some o => exact List.countP_singleton

/-- A trace agrees with a state when the last it saw is what the state shows, and before it saw anything it started
from `r` and `ports`. -/
structure Trace.Shows (tr : Trace) (r : Word32) (ports : PortMask × PortMask) (s : State) : Prop where
  rsp : tr.responses.getLastD r = s.rsp
  ports : (tr.changes.map Prod.snd).getLastD ports = (s.outPort, s.outDrive)

/-- Recording a step leaves the trace agreeing with the next state. -/
theorem Trace.Shows.record {tr : Trace} {r : Word32} {ports : PortMask × PortMask} {s t : State}
    (h : tr.Shows r ports s) (hs : step s = .next t) : (tr.record (nextMove s) s t).Shows r ports t where
  rsp := by
    rw [Trace.record_responses]
    cases hw : (nextMove s).any writesRsp with
    | true => exact List.getLastD_concat ..
    | false =>
      rw [if_neg Bool.false_ne_true, List.append_nil, h.rsp]
      exact (step_rsp hs hw).symm
  ports := by
    rw [Trace.record_changes, List.map_append]
    split
    next hsame => rw [List.map_nil, List.append_nil, h.ports, hsame.1, hsame.2]
    next => exact List.getLastD_concat ..

/-- Along a run the trace goes on agreeing with the state, and counts the moves. -/
theorem traceRun_shows {k : Nat} {s t : State} {tr : Trace} {r : Word32} {ports : PortMask × PortMask}
    (h : Host.Core.run Sys2Proof.core k s = .next t) (htr : tr.Shows r ports s) :
    (traceRun k s tr).Shows r ports t ∧
      (traceRun k s tr).responses.length = tr.responses.length + (movesRun k s).countP writesRsp ∧
      (traceRun k s tr).totalTicks = tr.totalTicks + (movesRun k s).countP isTickOut := by
  induction k generalizing s tr with
  | zero =>
    cases h
    exact ⟨htr, rfl, rfl⟩
  | succ k ih =>
    obtain ⟨u, hu, hrun⟩ := run_succ_cases h
    obtain ⟨hshows, hlen, hticks⟩ := ih hrun (htr.record hu)
    rw [traceRun_succ hu, movesRun_succ hu, List.countP_append, List.countP_append, countP_toList, countP_toList]
    refine ⟨hshows, ?_, ?_⟩
    · rw [hlen, Trace.record_responses, List.length_append, Nat.add_assoc]
      cases (nextMove s).any writesRsp <;> rfl
    · rw [hticks, Trace.record_totalTicks, Nat.add_assoc]

/-- Settles O60: the empty trace agrees with the first state, and every record keeps it so. -/
theorem traceAgreesWithTheRun : Obligations.TraceAgreesWithTheRun := by
  intro k s t h
  have hstart : Trace.start.Shows s.rsp (s.outPort, s.outDrive) s := ⟨rfl, rfl⟩
  obtain ⟨hshows, hlen, hticks⟩ := traceRun_shows h hstart
  exact ⟨hshows.rsp, hshows.ports, hlen.trans (Nat.zero_add _), hticks.trans (Nat.zero_add _)⟩

/-! ## Fairness -/

/-- A run that no refusal ends: an admitted configuration, and offers of agents now and later. -/
structure Runs (s : State) : Prop where
  admitted : Admitted s.cfg
  agents : OffersOfAgents (s.offers ++ s.cycle)

/-- The offers after a step were waiting before it or came again, and the cycle is as it was. -/
theorem step_offers {s t : State} (h : step s = .next t) :
    t.cfg = s.cfg ∧ t.cycle = s.cycle ∧ ∀ o ∈ t.offers, o ∈ s.offers ++ s.cycle := by
  have hsub {pre post : List Offer} {x : Offer} (hs : s.offers = pre ++ x :: post) :
      ∀ o ∈ pre ++ post, o ∈ s.offers ++ s.cycle := by
    intro o ho
    rw [hs]
    refine List.mem_append_left _ ((List.mem_append.mp ho).elim (List.mem_append_left _) fun ho => ?_)
    exact List.mem_append_right _ (List.mem_cons_of_mem _ ho)
  cases stepCase h with
  | offer o pre post i hs hm hi hx =>
    obtain ⟨hcfg, hoffers, hcycle⟩ := exec_keeps hx
    exact ⟨hcfg, hcycle, hoffers ▸ hsub hs⟩
  | illegal w pre post hs hm hx =>
    obtain rfl | rfl := execIllegal_cases hx <;> exact ⟨rfl, rfl, hsub hs⟩
  | handler i hh hm hx =>
    obtain ⟨hcfg, hoffers, hcycle⟩ := exec_keeps hx
    exact ⟨hcfg, hcycle, fun o ho => List.mem_append_left _ (hoffers ▸ ho)⟩
  | drain i hh hd hm hx =>
    obtain ⟨hcfg, hoffers, hcycle⟩ := exec_keeps hx
    exact ⟨hcfg, hcycle, fun o ho => State.refill_offers s ▸ hoffers ▸ ho⟩
  | idle hh hd hm hx => subst hx; exact ⟨rfl, rfl, fun o ho => ho⟩

/-- What holds of all offers now and later goes on holding of them. -/
theorem step_all_offers {s t : State} {P : Offer → Prop} (h : step s = .next t) (hP : ∀ o ∈ s.offers ++ s.cycle, P o) :
    ∀ o ∈ t.offers ++ t.cycle, P o := by
  obtain ⟨-, hcycle, hsub⟩ := step_offers h
  intro o ho
  obtain ho | ho := List.mem_append.mp ho
  · exact hP o (hsub o ho)
  · exact hP o (List.mem_append_right _ (hcycle ▸ ho))

theorem Runs.step {s t : State} (hr : Runs s) (h : step s = .next t) : Runs t :=
  ⟨(step_offers h).1 ▸ hr.admitted, step_all_offers h hr.agents⟩

theorem Runs.answers {s : State} (hr : Runs s) : ∃ t, Machine.step s = .next t :=
  noStepEverStops s hr.admitted fun o ho => hr.agents o (List.mem_append_left _ ho)

/-- The handler steps still due: one for a firing, one for the edge handler's return, two for its capture and return. -/
def handlerLoad (s : State) : Nat := s.tmr.flag.toNat + if s.edgePhase then 1 else 2 * s.edgeFlag.toNat

theorem handlerLoad_le (s : State) : handlerLoad s ≤ 3 := by
  have hf := Bool.toNat_le s.tmr.flag
  have he := Bool.toNat_le s.edgeFlag
  rw [handlerLoad]
  split <;> omega

/-- The steps the block takes at most before it has nothing to do but go on with its drain. -/
def workload (s : State) : Nat := 4 * s.offers.length + handlerLoad s

/-- A handler step is one of three, and its flag is set. -/
theorem handlerStep_cases {i : Instr} {s : State} (h : handlerStep s = some i) :
    (i = .evTimerIsr ∧ s.tmr.flag = true) ∨
      (i = .evEdgeIsrClr ∧ s.tmr.flag = false ∧ s.edgePhase = true) ∨
      (i = .evEdgeIsr ∧ s.tmr.flag = false ∧ s.edgePhase = false ∧ s.edgeFlag = true) := by
  cases hf : s.tmr.flag with
  | true =>
    rw [handlerStep_of_flag hf] at h
    exact .inl ⟨(Option.some.inj h).symm, rfl⟩
  | false =>
    cases hp : s.edgePhase with
    | true =>
      rw [handlerStep_of_edgePhase hf hp] at h
      exact .inr (.inl ⟨(Option.some.inj h).symm, rfl, rfl⟩)
    | false =>
      cases he : s.edgeFlag with
      | true =>
        rw [handlerStep_of_edgeFlag hf hp he] at h
        exact .inr (.inr ⟨(Option.some.inj h).symm, rfl, rfl, rfl⟩)
      | false =>
        rw [handlerStep_none_iff.mpr ⟨hf, hp, he⟩] at h
        cases h

/-- A handler step leaves one step fewer to take. -/
theorem handlerLoad_exec {i : Instr} {s t : State} (hh : handlerStep s = some i) (h : exec i s = .next t) :
    handlerLoad t < handlerLoad s := by
  obtain ⟨rfl, hf⟩ | ⟨rfl, hf, hp⟩ | ⟨rfl, hf, hp, he⟩ := handlerStep_cases hh
  · rw [exec_evTimerIsr hf] at h
    cases h
    rw [handlerLoad, handlerLoad, fire_flag, fire_edgePhase, fire_edgeFlag, hf]
    exact Nat.add_lt_add_right Nat.one_pos _
  · rw [exec_evEdgeIsrClr hp] at h
    cases h
    simp [handlerLoad, hf, hp]
  · rw [exec_evEdgeIsr he hp] at h
    cases h
    simp [handlerLoad, hf, hp, he]

/-- Taking an offer leaves less to do. -/
theorem workload_of_taken {s t : State} {pre post : List Offer} {o : Offer} (hs : s.offers = pre ++ o :: post)
    (ht : t.offers = pre ++ post) : workload t < workload s := by
  have hload := handlerLoad_le t
  rw [workload, workload, hs, ht]
  simp only [List.length_append, List.length_cons]
  omega

/-- So does running a handler. -/
theorem workload_of_handler {s t : State} {i : Instr} (hh : handlerStep s = some i) (h : exec i s = .next t) :
    workload t < workload s := by
  rw [workload, workload, (exec_keeps h).2.1]
  exact Nat.add_lt_add_left (handlerLoad_exec hh h) _

theorem execIllegal_offers {s t : State} (h : execIllegal s = .next t) : t.offers = s.offers := by
  obtain rfl | rfl := execIllegal_cases h <;> rfl

/-- A step leaves less to do, or comes when nothing is due and brings the offers of the cycle. -/
theorem workload_step {s t : State} (h : step s = .next t) :
    workload t < workload s ∨ (handlerStep s = none ∧ t.offers = s.offers ++ s.cycle) := by
  cases stepCase h with
  | offer o pre post i hs hm hi hx => exact .inl (workload_of_taken hs (exec_keeps hx).2.1)
  | illegal w pre post hs hm hx => exact .inl (workload_of_taken hs (execIllegal_offers hx))
  | handler i hh hm hx => exact .inl (workload_of_handler hh hx)
  | drain i hh hd hm hx => exact .inr ⟨hh, (exec_keeps hx).2.1⟩
  | idle hh hd hm hx => exact .inr ⟨hh, hx ▸ rfl⟩

/-- A condition that keeps a handler pending ends (60_exceptions.md R160). -/
theorem reaches_not_pending {P : State → Prop} (hP : ∀ s, P s → handlerStep s ≠ none) {s : State} (hr : Runs s) :
    Reaches s fun t => ¬ P t := by
  induction hn : workload s using Nat.strong_induction_on generalizing s with
  | _ n ih =>
    by_cases hs : P s
    · obtain ⟨t, ht⟩ := hr.answers
      obtain hlt | ⟨hnone, -⟩ := workload_step ht
      · exact .after ht (ih _ (hn ▸ hlt) (hr.step ht) rfl)
      · exact absurd hnone (hP s hs)
    · exact .now hs

/-- Sooner or later the moves of the cycle are offered again (60_exceptions.md R160; log 33). -/
theorem reaches_offered {s : State} (hr : Runs s) {o : Offer} (ho : o ∈ s.cycle) :
    Reaches s fun t => o ∈ t.offers ∧ Runs t ∧ t.cycle = s.cycle := by
  induction hn : workload s using Nat.strong_induction_on generalizing s with
  | _ n ih =>
    obtain ⟨t, ht⟩ := hr.answers
    obtain ⟨-, hcycle, -⟩ := step_offers ht
    refine .after ht ?_
    obtain hlt | ⟨-, hoffers⟩ := workload_step ht
    · rw [← hcycle] at ho ⊢
      exact ih _ (hn ▸ hlt) (hr.step ht) ho rfl
    · exact .now ⟨hoffers ▸ List.mem_append_right _ ho, hr.step ht, hcycle⟩

/-- A step that takes an offer leaves the others. -/
theorem step_offers_of_taken {s t : State} {o : Offer} {rest : List Offer}
    (htake : takeOffer s s.offers = some (o, rest)) (h : step s = .next t) : t.offers = rest := by
  rw [step, stepOnce, htake] at h
  obtain ⟨i, -, hx⟩ | ⟨-, hx⟩ := runOffer_cases h
  · exact (exec_keeps hx).2.1
  · exact execIllegal_offers hx

/-- An offer that is always ready is taken once those before it are (60_exceptions.md R160). -/
theorem reaches_taken {s : State} (hr : Runs s) {o : Offer} (hready : ∀ u, offerReady u o = true) (ho : o ∈ s.offers) :
    Reaches s fun t => nextMove t = some o ∧ t.cycle = s.cycle := by
  induction hn : s.offers.length using Nat.strong_induction_on generalizing s with
  | _ n ih =>
    obtain ⟨t, ht⟩ := hr.answers
    cases htake : takeOffer s s.offers with
    | none => exact absurd (hready s) (Bool.eq_false_iff.mp (takeOffer_none.mp htake o ho))
    | some p =>
      obtain ⟨x, rest⟩ := p
      by_cases hx : x = o
      · exact .now ⟨hx ▸ nextMove_of_takeOffer htake, rfl⟩
      · obtain ⟨pre, post, hl, hrest, -, -⟩ := takeOffer_some htake
        have hoffers := (step_offers_of_taken htake ht).trans hrest
        have hmem : o ∈ t.offers := by
          rw [hl] at ho
          rw [hoffers]
          exact (List.mem_append.mp ho).elim (List.mem_append_left _) fun h =>
            List.mem_append_right _ (List.mem_of_ne_of_mem (Ne.symm hx) h)
        have hlt : t.offers.length < n := by
          rw [← hn, hl, hoffers, List.length_append, List.length_append, List.length_cons]
          omega
        rw [← (step_offers ht).2.1]
        exact .after ht (ih _ hlt (hr.step ht) hmem rfl)

/-- Settles O59: each pending flag keeps a handler pending, and an offer of the cycle comes and is then taken. -/
theorem handlersRunAndTicksKeepTicking : Obligations.HandlersRunAndTicksKeepTicking := by
  intro s ha hos
  have hr : Runs s := ⟨ha, hos⟩
  refine ⟨fun _ => ?flag, fun _ => ?edgeFlag, fun _ => ?edgePhase, fun o ho hen => ?offer⟩
  case flag =>
    refine (reaches_not_pending (P := fun u => u.tmr.flag = true) (fun u hu hn => ?_) hr).mono
      fun _ => eq_false_of_ne_true
    exact Bool.eq_false_iff.mp (handlerStep_none_iff.mp hn).1 hu
  case edgeFlag =>
    refine (reaches_not_pending (P := fun u => u.edgeFlag = true) (fun u hu hn => ?_) hr).mono
      fun _ => eq_false_of_ne_true
    exact Bool.eq_false_iff.mp (handlerStep_none_iff.mp hn).2.2 hu
  case edgePhase =>
    refine (reaches_not_pending (P := fun u => u.edgePhase = true) (fun u hu hn => ?_) hr).mono
      fun _ => eq_false_of_ne_true
    exact Bool.eq_false_iff.mp (handlerStep_none_iff.mp hn).2.1 hu
  case offer =>
    obtain ⟨i, hi, hall⟩ := hen
    refine (reaches_offered hr ho).bind fun t ⟨hmem, hrt, hcycle⟩ => ?_
    rw [← hcycle]
    exact reaches_taken hrt (fun u => (offerReady_of_decode hi u).trans (hall u)) hmem

end Sys2Proof.Machine
end

section
/-! The drain (42_ppm_decoder.md R104, R105, R108): it ends when no edges arrive, and need not end when they keep
arriving (70_reset_and_hazards.md R181). -/

namespace Sys2Proof.Machine

/-! ## Nothing offered -/

/-- A drain with nothing pending and nothing offered, now or later. -/
structure DrainAlone (s : State) : Prop where
  drain : s.decPhase = true
  edgePhase : s.edgePhase = false
  edgeFlag : s.edgeFlag = false
  flag : s.tmr.flag = false
  offers : s.offers = []
  cycle : s.cycle = []

theorem DrainAlone.step {s : State} (h : DrainAlone s) {i : Instr} (hd : drainStep s = some i) :
    Machine.step s = exec i s := by
  have hnone : ∀ o ∈ s.offers, offerReady s o = false := by
    rw [h.offers]
    exact fun _ ho => absurd ho List.not_mem_nil
  rw [step_of_none_ready hnone, runPending_drain (handlerStep_none_iff.mpr ⟨h.flag, h.edgePhase, h.edgeFlag⟩) hd,
    State.refill_of_cycle_nil h.cycle]

/-- One step for each event, and one for the end (42_ppm_decoder.md R105, R108). -/
theorem DrainAlone.run {s : State} (h : DrainAlone s) (hw : s.ring.wr < s.cfg.ringCap)
    (hr : s.ring.rd < s.cfg.ringCap) :
    ∃ t, Host.Core.run Sys2Proof.core (s.ring.count s.cfg.ringCap + 1) s = .next t ∧
      t.quiet = true ∧ t.ring.rd = s.ring.wr ∧ t.ring.wr = s.ring.wr := by
  induction hn : s.ring.count s.cfg.ringCap generalizing s with
  | zero =>
    have hempty := (Ring.count_eq_zero_iff hw hr).mp hn
    have hready := (decodeEndReady_iff s).mpr ⟨h.drain, hempty, h.edgePhase⟩
    have hstep : Machine.step s = .next ((s.setPpm (s.ppm.watchdog s.cfg s.tbIn)).setDecPhase false) := by
      rw [h.step (drainStep_of_empty h.drain h.edgePhase hempty), exec, execEvDecodeEnd, hready, takeIf_enabled]
    refine ⟨_, (run_succ hstep).trans (run_zero _), ?_, hempty, rfl⟩
    simp [State.quiet, h.flag, h.edgeFlag, h.edgePhase, h.offers, h.cycle]
  | succ n ih =>
    have hne : s.ring.rd ≠ s.ring.wr := fun he => by simp [(Ring.count_eq_zero_iff hw hr).mpr he] at hn
    have hstep := (h.step (drainStep_of_events h.drain h.edgePhase hne)).trans
      (exec_evDecodeOne ((decodeOneReady_iff s).mpr ⟨h.drain, hne, h.edgePhase⟩))
    have hpop := Ring.count_pop hw hr hne
    rw [run_succ hstep]
    exact ih ⟨h.drain, h.edgePhase, h.edgeFlag, h.flag, h.offers, h.cycle⟩ hw
      (ringNext_lt (Nat.zero_lt_of_lt hr) _) (Nat.succ_injective (hpop.trans hn))

/-! ## No edges offered -/

/-- A run whose ring indices are in range and whose offers, now and later, are agents' and no pin changes. -/
structure Edgeless (s : State) : Prop where
  runs : Runs s
  wr : s.ring.wr < s.cfg.ringCap
  rd : s.ring.rd < s.cfg.ringCap
  noPin : ∀ o ∈ s.offers ++ s.cycle, ∀ p, decode o ≠ .ok (.evPin p)

/-- The events held and those still to come: a set flag stands for one push, counted twice so that the push is
progress. -/
def eventLoad (s : State) : Nat :=
  s.ring.count s.cfg.ringCap + if s.edgeFlag && !s.edgePhase then 2 else 0

section edgeless
variable {s t : State} {i : Instr}

/-- Every instruction keeps the ring's indices in range (10_state.md R33, R34). -/
theorem exec_ring_indices (h : exec i s = .next t) (hw : s.ring.wr < s.cfg.ringCap) (hr : s.ring.rd < s.cfg.ringCap) :
    t.ring.wr < t.cfg.ringCap ∧ t.ring.rd < t.cfg.ringCap := by
  have hcap : 0 < s.cfg.ringCap := Nat.zero_lt_of_lt hw
  by_cases hi : i = .evReset
  · obtain ⟨-, rfl⟩ := exec_evReset_cases (hi ▸ h)
    exact ⟨hcap, hcap⟩
  · cases exec_effect hi h with
    | pushesEdge => exact ⟨Ring.push_wr_lt hcap hw _, (Ring.push_rd ..).trans_lt hr⟩
    | decodesEdge => exact ⟨hw, ringNext_lt hcap _⟩
    | _ => exact ⟨hw, hr⟩

theorem step_ring_indices (h : step s = .next t) (hw : s.ring.wr < s.cfg.ringCap) (hr : s.ring.rd < s.cfg.ringCap) :
    t.ring.wr < t.cfg.ringCap ∧ t.ring.rd < t.cfg.ringCap :=
  step_preserves (P := fun u => u.ring.wr < u.cfg.ringCap ∧ u.ring.rd < u.cfg.ringCap) (fun _ _ hu => hu)
    (fun _ _ hu => hu) (fun _ _ _ hu hx => exec_ring_indices hx hu.1 hu.2) ⟨hw, hr⟩ h

theorem Edgeless.step (he : Edgeless s) (h : Machine.step s = .next t) : Edgeless t := by
  obtain ⟨hw, hr⟩ := step_ring_indices h he.wr he.rd
  exact ⟨he.runs.step h, hw, hr, step_all_offers h he.noPin⟩

/-- Without pin changes no instruction adds to the events; reset ends the drain, and a drain step makes progress. -/
theorem eventLoad_exec (h : exec i s = .next t) (hp : ∀ p, i ≠ .evPin p) (hw : s.ring.wr < s.cfg.ringCap)
    (hr : s.ring.rd < s.cfg.ringCap) : t.decPhase = false ∨ eventLoad t ≤ eventLoad s := by
  by_cases hi : i = .evReset
  · obtain ⟨-, rfl⟩ := exec_evReset_cases (hi ▸ h)
    exact .inl rfl
  · cases exec_effect hi h with
    | drivesPins p => exact absurd rfl (hp p)
    | pushesEdge hready =>
      obtain ⟨hf, hph⟩ := (edgeIsrReady_iff s).mp hready
      have hcount := Ring.count_push_le hw hr { ts := s.tbIn, snap := s.inPort }
      refine .inr ?_
      simp only [eventLoad, State.setEdgePhase_ring, State.setRing_ring, State.setEdgePhase_cfg, State.setRing_cfg,
        State.setEdgePhase_edgePhase, hf, hph]
      simp only [Bool.not_true, Bool.and_false, Bool.not_false, Bool.and_true, Bool.false_eq_true, if_false, if_true]
      omega
    | clearsEdge =>
      refine .inr (Nat.add_le_add_left ?_ _)
      exact Nat.zero_le _
    | decodesEdge hready =>
      have hpop := Ring.count_pop hw hr ((decodeOneReady_iff s).mp hready).2.1
      exact .inr (Nat.add_le_add_right (hpop ▸ Nat.le_succ _) _)
    | _ => exact .inr le_rfl

/-- The drain's own step takes an event or ends the drain (42_ppm_decoder.md R105, R108). -/
theorem eventLoad_drainStep (hd : drainStep s = some i) (h : exec i s.refill = .next t)
    (hw : s.ring.wr < s.cfg.ringCap) (hr : s.ring.rd < s.cfg.ringCap) :
    t.decPhase = false ∨ eventLoad t < eventLoad s := by
  obtain ⟨hen, rfl | rfl⟩ := drainStep_enabled hd
  · have hready : decodeOneReady s.refill = true := hen
    rw [exec_evDecodeOne hready] at h
    cases h
    have hpop := Ring.count_pop hw hr ((decodeOneReady_iff s).mp hen).2.1
    exact .inr (Nat.add_lt_add_right (hpop ▸ Nat.lt_succ_self _) _)
  · have hready : decodeEndReady s.refill = true := hen
    rw [exec, execEvDecodeEnd, hready, takeIf_enabled] at h
    cases h
    exact .inl rfl

/-- A step without pin changes ends the drain, or takes an event, or leaves the events and less other work. -/
theorem Edgeless.progress (he : Edgeless s) (hdrain : s.decPhase = true) (h : Machine.step s = .next t) :
    t.decPhase = false ∨ eventLoad t < eventLoad s ∨ (eventLoad t ≤ eventLoad s ∧ workload t < workload s) := by
  cases stepCase h with
  | offer o pre post i hs hm hi hx =>
    have hpin : ∀ p, i ≠ .evPin p := fun p hp =>
      he.noPin o (List.mem_append_left _ (hs ▸ List.mem_append_right _ (List.mem_cons_self ..))) p (hp ▸ hi)
    exact (eventLoad_exec (s := s.setOffers (pre ++ post)) hx hpin he.wr he.rd).imp_right fun hle =>
      .inr ⟨hle, workload_of_taken hs (exec_keeps hx).2.1⟩
  | illegal w pre post hs hm hx =>
    have hwork := workload_of_taken hs (execIllegal_offers hx)
    obtain rfl | rfl := execIllegal_cases hx <;> exact .inr (.inr ⟨le_rfl, hwork⟩)
  | handler i hh hm hx =>
    have hpin : ∀ p, i ≠ .evPin p := by
      rintro p rfl
      obtain ⟨hi, -⟩ | ⟨hi, -⟩ | ⟨hi, -⟩ := handlerStep_cases hh <;> cases hi
    exact (eventLoad_exec hx hpin he.wr he.rd).imp_right fun hle => .inr ⟨hle, workload_of_handler hh hx⟩
  | drain i hh hd hm hx => exact (eventLoad_drainStep hd hx he.wr he.rd).imp_right .inl
  | idle hh hd hm hx =>
    obtain ⟨-, hphase, -⟩ := handlerStep_none_iff.mp hh
    by_cases hempty : s.ring.rd = s.ring.wr
    · rw [drainStep_of_empty hdrain hphase hempty] at hd
      cases hd
    · rw [drainStep_of_events hdrain hphase hempty] at hd
      cases hd

/-- Without pin changes a drain ends (42_ppm_decoder.md R105; 60_exceptions.md R160). -/
theorem Edgeless.reaches_end (he : Edgeless s) : Reaches s fun t => t.decPhase = false := by
  induction hn : eventLoad s using Nat.strong_induction_on generalizing s with
  | _ n ih =>
    induction hm : workload s using Nat.strong_induction_on generalizing s with
    | _ m ih' =>
      cases hdrain : s.decPhase with
      | false => exact .now hdrain
      | true =>
        obtain ⟨t, ht⟩ := he.runs.answers
        refine .after ht ?_
        obtain hend | hlt | ⟨hle, hwork⟩ := he.progress hdrain ht
        · exact .now hend
        · exact ih _ (hn ▸ hlt) (he.step ht) rfl
        · obtain hlt | heq := Nat.lt_or_eq_of_le hle
          · exact ih _ (hn ▸ hlt) (he.step ht) rfl
          · exact ih' _ (hm ▸ hwork) (he.step ht) (heq.trans hn) rfl

end edgeless

/-! ## Edges that keep arriving -/

theorem admitted_test : Admitted Config.test := by decide

/-- The monitored pin up and down again, and a tick of each counter. -/
def edgesAndTicks : List Offer := [.event 0x03#8 1, .event 0x03#8 0, .event 0x01#8 0, .event 0x02#8 0]

/-- Where a drain that is refilled as fast as it is emptied stands: all of the cycle offered; the edge seen and its
handler not yet run, before and after the pin falls again; the edge in the ring. -/
inductive EndlessAt (s : State) : Prop where
  | offered (ho : s.offers = edgesAndTicks) (hp : s.edgePhase = false) (hi : s.inPort = 0)
  | high (ho : s.offers = .event 0x03#8 0 :: ticking) (hp : s.edgePhase = false) (hf : s.edgeFlag = true)
  | low (ho : ∀ o ∈ s.offers, o ∈ ticking) (hp : s.edgePhase = false) (hf : s.edgeFlag = true) (hi : s.inPort = 0)
  | held (ho : s.offers = []) (hi : s.inPort = 0) (hne : s.ring.rd ≠ s.ring.wr)

/-- A drain in the test configuration whose edges keep arriving (70_reset_and_hazards.md R181). -/
structure Endless (s : State) : Prop where
  cfg : s.cfg = Config.test
  cycle : s.cycle = edgesAndTicks
  drain : s.decPhase = true
  wr : s.ring.wr < s.cfg.ringCap
  rd : s.ring.rd < s.cfg.ringCap
  stage : EndlessAt s

/-- A ring is not empty after a push, whether the push was dropped or not (41_edge_capture.md R97). -/
theorem Ring.push_rd_ne_wr {cap : Nat} {r : Ring} (hcap : 2 ≤ cap) (hw : r.wr < cap) (ev : EdgeEvent) :
    (r.push cap ev).rd ≠ (r.push cap ev).wr := by
  cases h : r.isFull cap with
  | true =>
    have hnext := Ring.isFull_iff.mp h
    rw [Ring.push_full h, ← hnext]
    have hwrap := ringNext_eq hw
    rw [ringNext] at hwrap
    split at hwrap <;> omega
  | false =>
    rw [Ring.push_free h]
    exact fun he => Bool.eq_false_iff.mp h (Ring.isFull_iff.mpr he.symm)

section endless
variable {s : State}

/-- A handler that runs when nothing is offered keeps the edge: it is captured, or stays in the ring. -/
theorem endlessAt_handler (hcap : 2 ≤ s.cfg.ringCap) (hw : s.ring.wr < s.cfg.ringCap) (ho : s.offers = [])
    (hi : s.inPort = 0) (hedge : s.ring.rd ≠ s.ring.wr ∨ s.edgePhase = false ∧ s.edgeFlag = true)
    {i : Instr} {t : State} (hh : handlerStep s = some i) (h : exec i s = .next t) : t.decPhase = s.decPhase ∧ EndlessAt t := by
  obtain ⟨rfl, hf⟩ | ⟨rfl, hf, hp⟩ | ⟨rfl, hf, hp, he⟩ := handlerStep_cases hh
  · rw [exec_evTimerIsr hf] at h
    cases h
    refine ⟨rfl, ?_⟩
    obtain hne | ⟨hp, he⟩ := hedge
    · exact .held ho hi hne
    · exact .low (fun o hmem => absurd (ho ▸ hmem) List.not_mem_nil) hp he hi
  · rw [exec_evEdgeIsrClr hp] at h
    cases h
    exact ⟨rfl, .held ho hi (hedge.resolve_right fun hlow => Bool.eq_false_iff.mp hlow.1 hp)⟩
  · rw [exec_evEdgeIsr he hp] at h
    cases h
    exact ⟨rfl, .held ho hi (Ring.push_rd_ne_wr hcap hw _)⟩

theorem step_of_no_offers (ho : s.offers = []) : step s = runPending s :=
  step_of_none_ready fun _ hmem => absurd (ho ▸ hmem) List.not_mem_nil

/-- The drain goes on in the next stage, or in the same one. -/
theorem Endless.next (h : Endless s) : ∃ t, step s = .next t ∧ t.decPhase = true ∧ EndlessAt t := by
  have hcap : 2 ≤ s.cfg.ringCap := by rw [h.cfg]; decide
  have hzero : portBits s.cfg 0 = 0 := Nat.zero_mod _
  cases h.stage with
  | offered ho hp hi =>
    have hone : portBits s.cfg 1 = 1 := by rw [h.cfg]; decide
    refine ⟨_, stepRunsTheDecodedOffer s _ _ (.evPin 1) ho rfl rfl, h.drain, .high rfl hp ?_⟩
    have hedge : monitoredChange s.cfg s.inPort (portBits s.cfg 1) = true := by rw [hi, hone, h.cfg]; decide
    exact (congrArg _ hedge).trans (Bool.or_true _)
  | high ho hp hf =>
    refine ⟨_, stepRunsTheDecodedOffer s _ _ (.evPin 0) ho rfl rfl, h.drain, .low (fun o hmem => hmem) hp ?_ hzero⟩
    exact (congrArg (· || _) hf).trans (Bool.true_or _)
  | low ho hp hf hi =>
    cases hoffers : s.offers with
    | nil =>
      obtain ⟨i, hh⟩ := Option.ne_none_iff_exists'.mp fun hn : handlerStep s = none =>
        Bool.eq_false_iff.mp (handlerStep_none_iff.mp hn).2.2 hf
      obtain ⟨t, ht⟩ := exec_answers_of_admitted (s := s) (h.cfg ▸ admitted_test) i
      obtain ⟨hdec, hat⟩ := endlessAt_handler hcap h.wr hoffers hi (.inr ⟨hp, hf⟩) hh ht
      exact ⟨t, (step_of_no_offers hoffers).trans ((runPending_handler hh).trans ht), hdec.trans h.drain, hat⟩
    | cons o rest =>
      have hrest : ∀ x ∈ rest, x ∈ ticking := fun x hx => ho x (hoffers ▸ List.mem_cons_of_mem _ hx)
      obtain rfl | ho := List.mem_cons.mp (ho o (hoffers ▸ List.mem_cons_self ..))
      · exact ⟨_, stepRunsTheDecodedOffer s _ _ .evTickIn hoffers rfl rfl, h.drain, .low hrest hp hf hi⟩
      · obtain rfl := List.mem_singleton.mp ho
        exact ⟨_, stepRunsTheDecodedOffer s _ _ .evTickOut hoffers rfl rfl, h.drain, .low hrest hp hf hi⟩
  | held ho hi hne =>
    cases hh : handlerStep s with
    | some i =>
      obtain ⟨t, ht⟩ := exec_answers_of_admitted (s := s) (h.cfg ▸ admitted_test) i
      obtain ⟨hdec, hat⟩ := endlessAt_handler hcap h.wr ho hi (.inl hne) hh ht
      exact ⟨t, (step_of_no_offers ho).trans ((runPending_handler hh).trans ht), hdec.trans h.drain, hat⟩
    | none =>
      obtain ⟨-, hp, -⟩ := handlerStep_none_iff.mp hh
      have hstep := (runPending_drain hh (drainStep_of_events h.drain hp hne)).trans
        (exec_evDecodeOne (s := s.refill) ((decodeOneReady_iff s).mpr ⟨h.drain, hne, hp⟩))
      refine ⟨_, (step_of_no_offers ho).trans hstep, h.drain, .offered ?_ hp hi⟩
      exact (congrArg (· ++ s.cycle) ho).trans h.cycle

theorem Endless.step (h : Endless s) : ∃ t, Machine.step s = .next t ∧ Endless t := by
  obtain ⟨t, ht, hdrain, hstage⟩ := h.next
  obtain ⟨hcfg, hcycle, -⟩ := step_offers ht
  obtain ⟨hw, hr⟩ := step_ring_indices ht h.wr h.rd
  exact ⟨t, ht, hcfg.trans h.cfg, hcycle.trans h.cycle, hdrain, hw, hr, hstage⟩

theorem Endless.run (h : Endless s) (n : Nat) :
    ∃ t, Host.Core.run Sys2Proof.core n s = .next t ∧ t.decPhase = true := by
  induction n generalizing s with
  | zero => exact ⟨s, run_zero s, h.drain⟩
  | succ n ih =>
    obtain ⟨t, ht, hnext⟩ := h.step
    rw [run_succ ht]
    exact ih hnext

end endless

/-- The state after reset, in a drain with an edge seen, whose edges and ticks keep coming. -/
def endlessDrain : State := { State.reset with decPhase := true, edgeFlag := true, cycle := edgesAndTicks }

theorem endlessDrain_endless : Endless endlessDrain :=
  ⟨rfl, rfl, rfl, by decide, by decide, .low (fun _ h => absurd h List.not_mem_nil) rfl rfl rfl⟩

/-- Settles O33: alone the drain takes one step per event; without pin changes the events run out; and with the edges of
`endlessDrain` they do not. -/
theorem drainEndsWhenNoEdgesArrive : Obligations.DrainEndsWhenNoEdgesArrive := by
  refine ⟨fun s hfits hd hp hf ht ho hc => ?alone, fun s ha hfits _ hos hpin => ?edgeless, endlessDrain, ?_, ?_, ?_,
    endlessDrain_endless.run⟩
  case alone =>
    obtain ⟨-, hw, hr, -⟩ := hfits
    exact DrainAlone.run ⟨hd, hp, hf, ht, ho, hc⟩ hw hr
  case edgeless =>
    obtain ⟨-, hw, hr, -⟩ := hfits
    exact Edgeless.reaches_end ⟨⟨ha, hos⟩, hw, hr, hpin⟩
  all_goals obtain ⟨hinv, hout⟩ := invariantsHoldAfterReset Config.test 0#16 0 admitted_test (by decide)
  · exact { hinv with }
  · exact { hout with }
  · unfold State.KeepsTicking
    decide

end Sys2Proof.Machine
end
